-- ==== Sys2Proof/Word.lean ====
section
/-! DEFINITION. The byte of the cell link, the names of the eight heads and the two stages (spec/00, Conventions),
and the records that hold one thing per head or per stage. -/

namespace Sys2Proof

/-- One byte of the cell link. -/
abbrev Byte := BitVec 8

/-- The eight heads, H0 to H7. -/
inductive Head where
  | h0 | h1 | h2 | h3 | h4 | h5 | h6 | h7
deriving DecidableEq, Repr

/-- The two power stages, S0 and S1. -/
inductive Stage where
  | s0 | s1
deriving DecidableEq, Repr

/-- The heads in ascending head number. -/
def Head.all : List Head := [.h0, .h1, .h2, .h3, .h4, .h5, .h6, .h7]

/-- The head's number. -/
def Head.num : Head → Nat
  | .h0 => 0 | .h1 => 1 | .h2 => 2 | .h3 => 3 | .h4 => 4 | .h5 => 5 | .h6 => 6 | .h7 => 7

/-- The head a number names; a number above 7 names none. -/
def Head.ofNum? : Nat → Option Head
  | 0 => some .h0 | 1 => some .h1 | 2 => some .h2 | 3 => some .h3
  | 4 => some .h4 | 5 => some .h5 | 6 => some .h6 | 7 => some .h7
  | _ => none

/-- The stages in ascending stage number. -/
def Stage.all : List Stage := [.s0, .s1]

/-- The stage's number. -/
def Stage.num : Stage → Nat
  | .s0 => 0 | .s1 => 1

/-- The stage a number names; a number above 1 names none. -/
def Stage.ofNum? : Nat → Option Stage
  | 0 => some .s0 | 1 => some .s1 | _ => none

/-- One thing for each head. -/
structure PerHead (α : Type) where
  h0 : α
  h1 : α
  h2 : α
  h3 : α
  h4 : α
  h5 : α
  h6 : α
  h7 : α
deriving DecidableEq, Repr

/-- What head `h` holds. -/
def PerHead.get {α : Type} (p : PerHead α) : Head → α
  | .h0 => p.h0 | .h1 => p.h1 | .h2 => p.h2 | .h3 => p.h3
  | .h4 => p.h4 | .h5 => p.h5 | .h6 => p.h6 | .h7 => p.h7

/-- Head `h` holds `v` from now on; the other heads hold what they held. -/
def PerHead.set {α : Type} (p : PerHead α) (h : Head) (v : α) : PerHead α :=
  match h with
  | .h0 => { p with h0 := v }
  | .h1 => { p with h1 := v }
  | .h2 => { p with h2 := v }
  | .h3 => { p with h3 := v }
  | .h4 => { p with h4 := v }
  | .h5 => { p with h5 := v }
  | .h6 => { p with h6 := v }
  | .h7 => { p with h7 := v }

/-- The record whose head `h` holds `f h`. -/
def PerHead.make {α : Type} (f : Head → α) : PerHead α :=
  ⟨f .h0, f .h1, f .h2, f .h3, f .h4, f .h5, f .h6, f .h7⟩

/-- One thing for each stage. -/
structure PerStage (α : Type) where
  s0 : α
  s1 : α
deriving DecidableEq, Repr

/-- What stage `g` holds. -/
def PerStage.get {α : Type} (p : PerStage α) : Stage → α
  | .s0 => p.s0 | .s1 => p.s1

/-- Stage `g` holds `v` from now on; the other stage holds what it held. -/
def PerStage.set {α : Type} (p : PerStage α) (g : Stage) (v : α) : PerStage α :=
  match g with
  | .s0 => { p with s0 := v }
  | .s1 => { p with s1 := v }

end Sys2Proof
end

