-- ==== Sys2Proof/Syntax.lean ====
section
/-! DEFINITION. The commands the GB8 takes: one constructor of `Instr` for each row of spec/opcode_table.json.
A request's fields are the numbers its payload carries (R191, R192), so that a value out of range can be sent and
refused. `time` is the time of the command in ms and `tag` the tag its reply copies (R186); a timer's expiry has no
time of its own, since it is taken at the timer's expiry time (log entry 1). -/

namespace Sys2Proof

/-- The level of a line input or a pin (spec/00): ESTOP and MOTION are asserted when low; CLAMP is closed, FLOW is
good and KEY is closed when high. -/
inductive Level where
  | low | high
deriving DecidableEq, Repr

/-- The filtered line inputs of the interlock block (R151). -/
inductive LineInput where
  | estop
  | motion
  | key
  | clamp (h : Head)
  | flow (h : Head)
deriving DecidableEq, Repr

/-- The rate of the cell link, as the strap pin selects it (R186). -/
inductive Rate where
  | baud115200 | baud460800
deriving DecidableEq, Repr, Inhabited

/-- One pyrometer message (R139). -/
inductive Sample where
  | reading (celsius : Nat)
  | underRange
  | overRange
  | sensorFault
deriving DecidableEq, Repr

/-- The four sample kinds (R139). -/
inductive Sample.Kind where
  | reading | underRange | overRange | sensorFault
deriving DecidableEq, Repr

/-- One item of a settings request: its code and its two-byte value (R191). -/
structure Item where
  code : Nat
  value : Nat
deriving DecidableEq, Repr

/-- The bytes of one slot of LOAD_FRAME (R191). -/
structure RawSlot where
  length : Nat
  rule : Nat
  first : Nat
  second : Nat
  fallback : Nat
  split : Nat
deriving DecidableEq, Repr

/-- The fields of a job record as SUBMIT_JOB carries them (R192); a trim of 0 is an absent trim. -/
structure RawJob where
  jobTag : Nat
  indexTag : Nat
  recipe : Nat
  startMode : Nat
  lastOfIndex : Nat
  armTimeout : Nat
  trim : Nat
deriving DecidableEq, Repr

/-- What a segment report carries (R111): average power in W, on-time in ms, phase angle in degrees, load in mΩ and
the trip mark. -/
structure SegReport where
  power : Nat
  onTime : Nat
  angle : Int
  load : Nat
  trip : Bool
deriving DecidableEq, Repr

/-- The commands of the part, in the table's order. -/
inductive Instr where
  | identify (time : Nat) (tag : Byte)
  | getStatus (time : Nat) (tag : Byte)
  | reset (time : Nat) (tag : Byte)
  | setCell (time : Nat) (tag : Byte) (items : List Item)
  | setHead (time : Nat) (tag : Byte) (head : Nat) (items : List Item)
  | setStage (time : Nat) (tag : Byte) (stage : Nat) (items : List Item)
  | loadFrame (time : Nat) (tag : Byte) (stage : Nat) (slots : List RawSlot)
  | submitJob (time : Nat) (tag : Byte) (head : Nat) (job : RawJob)
  | cancelJob (time : Nat) (tag : Byte) (head : Nat) (jobTag : Nat)
  | flushQueue (time : Nat) (tag : Byte) (head : Nat)
  | startHeads (time : Nat) (tag : Byte) (heads : Byte)
  | hold (time : Nat) (tag : Byte)
  | resume (time : Nat) (tag : Byte)
  | powerOn (time : Nat) (tag : Byte) (stage : Nat)
  | powerOff (time : Nat) (tag : Byte) (stage : Nat)
  | clearFaultHead (time : Nat) (tag : Byte) (head : Nat)
  | clearFaultStage (time : Nat) (tag : Byte) (stage : Nat)
  | clearFaultDevice (time : Nat) (tag : Byte)
  | getHead (time : Nat) (tag : Byte) (head : Nat)
  | getStage (time : Nat) (tag : Byte) (stage : Nat)
  | getFrame (time : Nat) (tag : Byte) (stage : Nat)
  | fetchResults (time : Nat) (tag : Byte)
  | fetchEvents (time : Nat) (tag : Byte)
  | readRecipe (time : Nat) (tag : Byte) (entry : Nat)
  | programRecipe (time : Nat) (tag : Byte) (entry : Nat) (record : List Byte)
  | eraseBank (time : Nat) (tag : Byte) (bank : Nat)
  | getStore (time : Nat) (tag : Byte)
  | clearStore (time : Nat) (tag : Byte)
  | setProtect (time : Nat) (tag : Byte) (working master : Nat)
  | frameReceived (time : Nat) (kind tag : Byte) (payload : List Byte)
  | gapTimerExpiry
  | replySent (time : Nat)
  | resetLine (time : Nat) (strap : Rate)
  | powerOnReset (time : Nat) (strap : Rate)
  | busReport (time : Nat) (stage : Stage) (intact : Bool) (ready : Bool)
  | segmentReport (time : Nat) (stage : Stage) (intact : Bool) (report : SegReport)
  | tripReport (time : Nat) (stage : Stage) (intact : Bool) (code : Nat)
  | settleTimerExpiry (stage : Stage)
  | completionTimerExpiry (stage : Stage)
  | slotTimerExpiry (stage : Stage)
  | splitTimerExpiry (stage : Stage)
  | armTimerExpiry (head : Head)
  | durationTimerExpiry (head : Head)
  | timeLimitExpiry (head : Head)
  | pyrometerSample (time : Nat) (head : Head) (intact : Bool) (sample : Sample)
  | lostTimerExpiry (head : Head)
  | lineInputChange (time : Nat) (input : LineInput) (level : Level)
  | initialLevelTaken (input : LineInput)
  | estopAsserted
  | estopReleased
  | motionAsserted
  | motionReleased
  | clampFallingEdge (head : Head)
  | clampRisingEdge (head : Head)
  | flowFallingEdge (head : Head)
  | flowRisingEdge (head : Head)
  | keyChange
  | flowGraceTimerExpiry (head : Head)
  | programComplete (passed : Bool)
  | eraseComplete (passed : Bool)
  | suspendTimerExpiry
  | byteReceived (time : Nat) (byte : Byte) (stopBit : Bool)
  | resetLineReleased (time : Nat)
deriving DecidableEq, Repr

end Sys2Proof
end

