-- ==== Sys2Proof/Decode.lean ====
section
/-! DEFINITION. The command a word spells by the bits of spec/opcode_table.json. The table gives no row any bits
(spec/98_reader: n_rows_with_fixed 0, n_rows_with_fields 0), so no word spells a command. The bytes of the cell link
are read by Sys2Proof/Machine/Link.lean. -/

namespace Sys2Proof

/-- The command spelled by the `nbits` bits of `w`: no row of the table gives bits, so there is none. -/
def decodeTableWord (_nbits _w : Nat) : Option Instr := none

end Sys2Proof
end

