-- ==== Sys2Proof/Config.lean ====
section
/-! DEFINITION. What the manual leaves open and the part fixes or chooses: the free values. None has a body,
so no proof can lean on one. Each is applied to a plain number (the choice counter of State, or the value whose
code is open). Log entries 6 to 9, 12, 13, 16, 30 and 39. -/

namespace Sys2Proof

/-- The order in which the job manager meets the work of the heat law unit and of the coupling tuner on one
segment report (R34, R125, R128, R132). Log entry 6. -/
inductive ReportOrder where
  /-- The tuner acts and its cause is taken, and then the heat law unit's checks are made. -/
  | tunerCauseFirst
  /-- The tuner acts, the heat law unit's cause is taken, and then the tuner's cause is taken. -/
  | tunerActsFirst
  /-- The heat law unit's cause is taken before the tuner acts. -/
  | heatFirst
deriving DecidableEq, Repr, Inhabited

/-- FREE. The order at the segment report counted `n` (R132). Log entry 6. -/
opaque Config.reportOrder (n : Nat) : ReportOrder

/-- FREE. Whether the event the tuner raises on a segment report (LOAD_SHIFT or COIL_DRIFT) is placed before the
events of a joint's end on the same report (R173). Log entry 9. -/
opaque Config.tunerEventFirst (n : Nat) : Bool

/-- FREE. Whether the start checks are made before the first slot decision as a stage enters READY (R105).
Log entry 7. -/
opaque Config.startChecksFirst (n : Nat) : Bool

/-- FREE. Whether the stages are turned off before the joints are ended at an ESTOP assertion (R157).
Log entry 8. -/
opaque Config.stagesOffFirst (n : Nat) : Bool

/-- Where the ESTOP event stands among the events that the stages and the joints raise at the assertion (R173).
Log entry 8. -/
inductive EventPlace where
  | first | between | last
deriving DecidableEq, Repr, Inhabited

/-- FREE. Where the ESTOP event is placed among the events the stages and the joints raise at the assertion
(R157, R173). Log entry 8. -/
opaque Config.estopEventPlace (n : Nat) : EventPlace

/-- FREE. The level of the strap pin at the warm reset of a RESET request: the pin is moved from outside the part, and
REPLY_SENT, after which the reset acts, carries no level (R186, R195). Log entry 16. -/
opaque Config.strapLevel (n : Nat) : Rate

/-- FREE. The hardware revision IDENTIFY gives (R194). Log entry 12. -/
opaque Config.hardwareRevision : Byte

/-- FREE. The firmware revision IDENTIFY gives, two bytes (R193, R194). Log entry 12. -/
opaque Config.firmwareRevision : BitVec 16

/-- FREE. The byte that stands for a sample kind in a GET_HEAD reply: R192 lists no code for it. Log entry 13. -/
opaque Config.sampleKindCode (k : Sample.Kind) : Byte

/-- FREE. What a reply carries in a field of `width` bytes for a number that does not fit it (R193 states none).
Log entry 30. -/
opaque Config.unstatedField (width value : Nat) : Nat

/-- FREE. The time left that GET_FRAME gives for a last-served record whose end time lies `past` ms back (R98 states
none). Log entry 39. -/
opaque Config.pastTimeLeft (past : Nat) : Nat

end Sys2Proof
end

