-- ==== Sys2Proof/Machine/State.lean ====
section
/-! DEFINITION. The state of the GB8: every register, queue, timer, record and pin the manual gives it, block by
block, and what each holds after a reset. A timer is absent when it is stopped and holds its expiry time in ms when
it runs. -/

namespace Sys2Proof.Machine

/-! ## Names of states, modes and choices -/

/-- Head states (R6). -/
inductive HeadMode where
  | disabled | idle | armed | tuning | heating | stopping | faulted
deriving DecidableEq, Repr

/-- The 17 outcomes (section 9.2), in the table's order. -/
inductive JointOutcome where
  | done | lowEnergy | cancelled | expired | recipeMissing | noLock | coupling | tuneLimit | overtemp
  | overEnergy | phaseTimeout | sensorLost | clampLost | coolant | stageFault | abortedEstop | abortedMotion
deriving DecidableEq, Repr

/-- Start modes of a job (R1). -/
inductive StartMode where
  | immediate | onStart | onClamp
deriving DecidableEq, Repr

/-- Stale policies (R64). -/
inductive StalePolicy where
  | holdLast | stepDown
deriving DecidableEq, Repr

/-- Tuning start modes (R122). -/
inductive TuneStart where
  | fromFloor | fromLast
deriving DecidableEq, Repr

/-- Drift policies (R122). -/
inductive DriftPolicy where
  | perJob | running
deriving DecidableEq, Repr

/-- Clamp edge reports (R151). -/
inductive ClampReport where
  | none | rise | fall | both
deriving DecidableEq, Repr

/-- Lock states (R121). -/
inductive LockState where
  | none | searching | locked
deriving DecidableEq, Repr

/-- Stage states (R100). -/
inductive StageMode where
  | off | settling | ready | fault
deriving DecidableEq, Repr

/-- Stage fault causes (R106). -/
inductive FaultCause where
  | trip | busNotReady | busLost | linkTimeout
deriving DecidableEq, Repr

/-- Device modes (R151). -/
inductive DeviceMode where
  | run | hold | interlocked
deriving DecidableEq, Repr

/-- Motion policies (R151). -/
inductive MotionPolicy where
  | keep | flush
deriving DecidableEq, Repr

/-- Store states (R177). -/
inductive StoreMode where
  | ready | programming | erasing | eraseSuspended
deriving DecidableEq, Repr

/-- The kinds of reset (R194). -/
inductive ResetKind where
  | powerOn | line | request
deriving DecidableEq, Repr

/-! ## Recipes (spec/02) -/

/-- The fields RAMP and SOAK phases share (R28). -/
structure HeatFields where
  tEnd : Nat
  kp : Nat
  pBase : Nat
  pMin : Nat
  pMax : Nat
  timeLimit : Nat
deriving DecidableEq, Repr

/-- The exit of a SOAK phase (R28): after a duration in ms, or at an energy threshold in J. -/
inductive SoakExit where
  | time (duration : Nat)
  | energy (threshold : Nat)
deriving DecidableEq, Repr

/-- A phase record (R28). -/
inductive Phase where
  | ramp (rate : Nat) (fields : HeatFields)
  | soak (exit : SoakExit) (fields : HeatFields)
  | dwell (duration : Nat)
deriving DecidableEq, Repr

/-- A recipe record (R27). The phase count is the length of the phase list. -/
structure Recipe where
  filterDepth : Nat
  overtempCeiling : Nat
  energyCeiling : Nat
  minEnergy : Nat
  rMin : Nat
  rMax : Nat
  exitBand : Nat
  phases : List Phase
deriving DecidableEq, Repr

/-! ## Jobs and joints (spec/01, spec/03) -/

/-- An accepted job record (R1); arm timeout in s, 0 for none; trim in %. -/
structure Job where
  jobTag : Nat
  indexTag : Nat
  lastOfIndex : Bool
  recipe : Nat
  startMode : StartMode
  armTimeout : Nat
  trim : Nat
deriving DecidableEq, Repr

/-- One entry of a joint's phase list (R35, R40): the phase number, and its duration in ms and energy in J, absent
while they are open. -/
structure PhaseEntry where
  number : Nat
  duration : Option Nat
  energy : Option Nat
deriving DecidableEq, Repr

/-- A tap and the load measured at it (R121, R127). -/
structure LockRecord where
  tap : Nat
  load : Nat
deriving DecidableEq, Repr

/-- The basis of a heat decision (R63). -/
inductive Basis where
  | computed | holdLast | stepDown
deriving DecidableEq, Repr

/-- The decision record of a joint (R63). -/
structure DecisionRecord where
  time : Nat
  basis : Basis
  age : Option Nat
  target : Option Nat
  error : Option Int
  cap : Nat
  lowerBound : Nat
  setpoint : Nat
  orderSent : Bool
deriving DecidableEq, Repr

/-- The joint context (R10, R32). Recipe loaded is "yes" exactly when `recipe` is present. -/
structure Joint where
  job : Job
  recipe : Option Recipe
  startSeen : Bool
  armTimer : Option Nat
  startTime : Option Nat
  cause : Option JointOutcome
  phase : Option Nat
  phaseEntry : Option Nat
  energy : Nat
  remainder : Nat
  entryEnergy : Nat
  peak : Option Nat
  phaseList : List PhaseEntry
  lock : Option LockRecord
  minEnergy : Nat
  ceiling : Nat
  thresholds : List (Option Nat)
  exitPending : Bool
  tEntry : Option Nat
  durationTimer : Option Nat
  limitTimer : Option Nat
  lastSetpoint : Option Nat
  decision : Option DecisionRecord
deriving DecidableEq, Repr

/-! ## What one head holds -/

/-- The settings of a head, each held by its owner: R7, R64, R100, R122, R149, R166. -/
structure HeadSettings where
  faultLimit : Nat
  stage : Stage
  powerLimit : Nat
  stalePolicy : StalePolicy
  floor : Nat
  ceiling : Nat
  settleStep : Nat
  startMode : TuneStart
  angleWindow : Nat
  probePower : Nat
  driftLimit : Nat
  driftPolicy : DriftPolicy
  loadShiftLimit : Nat
  channelEnabled : Bool
  staleLimit : Nat
  lostLimit : Nat
  clampReport : ClampReport
  flowGrace : Nat
deriving DecidableEq, Repr

/-- The tuning record (R121). -/
structure TuningRec where
  currentTap : Nat
  lockState : LockState
  skipTap : Option Nat
  lastLock : Option LockRecord
  driftCount : Nat
  ceilingReached : Bool
  lockHeld : Bool
deriving DecidableEq, Repr

/-- The temperature record (R141) but for its settings. -/
structure TempRec where
  lastReceived : Option (Sample.Kind × Nat)
  lastValue : Option (Nat × Nat)
  underFlag : Bool
  overFlag : Bool
  tf : Option Nat
  lastTaken : Option Nat
  lostTimer : Option Nat
deriving DecidableEq, Repr

/-- A filtered line input (R151 to R153): the pin's level, the taken level (absent while unknown) and the 2 ms
filter timer. -/
structure Input where
  pin : Level
  taken : Option Level
  filter : Option Nat
deriving DecidableEq, Repr

/-- The line record (R151) but for its settings. -/
structure LineRec where
  clamp : Input
  flow : Input
  graceTimer : Option Nat
deriving DecidableEq, Repr

/-- Everything the blocks hold for one head. -/
structure HeadRec where
  mode : HeadMode
  queue : List Job
  joint : Option Joint
  faultCount : Nat
  settings : HeadSettings
  tuning : TuningRec
  temp : TempRec
  line : LineRec
deriving DecidableEq, Repr

/-! ## What one stage holds -/

/-- The segment in flight (R109): times and durations in ms, power in W. -/
structure Segment where
  head : Head
  tap : Nat
  power : Nat
  lead : Nat
  duration : Nat
  continuation : Bool
  handover : Nat
  cut : Bool
deriving DecidableEq, Repr

/-- An order on a stage link (spec/05). -/
inductive StageOrder where
  | busOn
  | busOff
  | heat (head : Head) (tap power lead duration : Nat) (continuation : Bool)
  | cut
deriving DecidableEq, Repr

/-- The cause record of a stage (R106, R107). -/
structure CauseRec where
  cause : FaultCause
  tripCode : Nat
  time : Nat
  cleared : Bool
deriving DecidableEq, Repr

/-- The fallback of a FIXED or CHAIN slot (R72). -/
inductive Fallback where
  | passive | rotate
deriving DecidableEq, Repr

/-- A slot's rule with the fields it uses (R72). -/
inductive SlotRule where
  | passive
  | fixed (h : Head) (fallback : Fallback)
  | prefer (h g : Head)
  | rotate
  | chain (h : Head) (fallback : Fallback)
  | split (h g : Head) (point : Nat)
deriving DecidableEq, Repr

/-- One slot (R72): its length in ms and its rule. -/
structure Slot where
  length : Nat
  rule : SlotRule
deriving DecidableEq, Repr

/-- The parts of a slot (R192). -/
inductive Part where
  | whole | first | second
deriving DecidableEq, Repr

/-- The running state of a frame (R74): the slot now running, its part, the start of the slot, the start and the
end of the part, the slot timer, and the split timer while it runs. -/
structure Running where
  slot : Nat
  part : Part
  slotStart : Nat
  partStart : Nat
  partEnd : Nat
  slotTimer : Nat
  splitTimer : Option Nat
deriving DecidableEq, Repr

/-- Slot decision outcomes (R99). -/
inductive DecisionOutcome where
  | passiveRule | noneWanting | heatSent | probeSent | zeroPower | windowShort | overtaken
deriving DecidableEq, Repr

/-- Names of the slot rules (R192). -/
inductive RuleName where
  | passive | fixed | prefer | rotate | chain | split
deriving DecidableEq, Repr

/-- What the slot decision record holds for a segment that was sent (R99). -/
structure SentRec where
  gap : Bool
  window : Nat
  duration : Nat
  power : Nat
  continuation : Bool
deriving DecidableEq, Repr

/-- The last slot decision record (R99). -/
structure SlotDecision where
  slot : Nat
  part : Part
  wait : Nat
  rule : RuleName
  recipient : Option Head
  outcome : DecisionOutcome
  sent : Option SentRec
deriving DecidableEq, Repr

/-- Everything the stage interface and the slot scheduler hold for one stage (R100, spec/04). -/
structure StageRec where
  mode : StageMode
  settleTimer : Option Nat
  busReady : Bool
  matrix : Option Head
  segment : Option Segment
  completionTimer : Option Nat
  fault : Option CauseRec
  powerLimit : Nat
  gap : Nat
  settleTime : Nat
  active : Option (List Slot)
  pendingFrame : Option (List Slot)
  running : Option Running
  deferred : Bool
  pointer : Option Head
  lastServed : Option (Head × Nat)
  lastDecision : Option SlotDecision
  orders : List StageOrder
deriving DecidableEq, Repr

/-! ## The blocks that serve the whole part -/

/-- An entry of the index tracker (R21). -/
structure IndexEntry where
  tag : Nat
  outstanding : Nat
  ended : Nat
  failed : Nat
  closed : Bool
deriving DecidableEq, Repr

/-- A result record (R168). -/
structure ResultRec where
  jobTag : Nat
  indexTag : Nat
  head : Head
  recipe : Nat
  outcome : JointOutcome
  energy : Nat
  peak : Option Nat
  runTime : Nat
  drift : Nat
  lock : Option LockRecord
  phaseList : List PhaseEntry
deriving DecidableEq, Repr

/-- What a MOTION event carries (R172). -/
inductive MotionValue where
  | released | assertedNotInterlocked | assertedInterlocked
deriving DecidableEq, Repr

/-- A store operation (R177): the program of an entry with its record, or the erase of a bank. -/
inductive StoreOp where
  | program (entry : Fin 64) (recipe : Recipe)
  | erase (bank : Fin 4)
deriving DecidableEq, Repr

/-- The operation a STORE_DONE event carries (R172). -/
inductive DoneOp where
  | program (entry : Fin 64)
  | erase
deriving DecidableEq, Repr

/-- An event record (R172): its kind with the subject and the value the kind carries. -/
inductive Event where
  | indexDone (tag ended failed : Nat)
  | headFault (h : Head)
  | frameAdopted (g : Stage)
  | stageReady (g : Stage)
  | stageFault (g : Stage) (cause : FaultCause)
  | loadShift (h : Head) (load : Nat)
  | coilDrift (h : Head) (tap : Nat)
  | estop (asserted : Bool)
  | motion (value : MotionValue)
  | clampRise (h : Head)
  | clampFall (h : Head)
  | flowLow (h : Head)
  | flowOk (h : Head)
  | coolantFault (h : Head)
  | storeDone (bank : Fin 4) (op : DoneOp) (passed : Bool)
deriving DecidableEq, Repr

/-- The report block (spec/09): both queues oldest first. -/
structure ReportRec where
  results : List ResultRec
  events : List Event
  eventsLost : Nat
  attn : Bool
deriving DecidableEq, Repr

/-- The interlock record of the cell (R151). -/
structure CellRec where
  mode : DeviceMode
  causeEstop : Bool
  causeMotion : Bool
  estop : Input
  motion : Input
  key : Input
  motionPolicy : MotionPolicy
  eraseSuspend : Bool
deriving DecidableEq, Repr

/-- An entry of the recipe store (R177). -/
inductive Entry where
  | blank
  | valid (recipe : Recipe)
  | spoiled
deriving DecidableEq, Repr

/-- A waiting recipe fetch (R177). -/
structure Fetch where
  head : Head
  entry : Nat
deriving DecidableEq, Repr

/-- The recipe store (R177). `carried` says that a warm reset found the operation in flight (R185). -/
structure StoreRec where
  mode : StoreMode
  op : Option StoreOp
  opTimer : Option Nat
  remaining : Option Nat
  suspendTimer : Option Nat
  carried : Bool
  programError : Bool
  eraseError : Bool
  workingEnable : Bool
  masterEnable : Bool
  waiting : List Fetch
  entries : Vector Entry 64
deriving DecidableEq, Repr

/-- A complete frame in the receive buffer (R188). -/
structure LinkFrame where
  kind : Byte
  tag : Byte
  payload : List Byte
deriving DecidableEq, Repr

/-- A reply in the transmitter (R189): its bytes' fields, whether it answers the frame in processing (R188), and
whether a warm reset takes effect once it has been sent (R195). -/
structure Reply where
  kind : Byte
  tag : Byte
  payload : List Byte
  answersFrame : Bool
  resets : Bool
deriving DecidableEq, Repr

/-- The receiver (R187): HUNTING, or IN_FRAME with the bytes after the sync byte, in their order. -/
inductive Receiver where
  | hunting
  | inFrame (bytes : List Byte)
deriving DecidableEq, Repr

/-- The cell link (spec/11). -/
structure LinkRec where
  receiver : Receiver
  gapTimer : Option Nat
  processing : Option LinkFrame
  waiting : Option LinkFrame
  replies : List Reply
  linkErrors : Nat
  overruns : Nat
  rate : Rate
  strap : Rate
  lastReset : ResetKind
deriving DecidableEq, Repr

/-- The whole part. `now` is the time of the last command in ms, `inReset` says that the RESET line is held
asserted (R195), `choices` counts the free choices made, and `pending` holds the commands that wait, first in, first
out. -/
structure State where
  now : Nat
  inReset : Bool
  choices : Nat
  link : LinkRec
  cell : CellRec
  heads : PerHead HeadRec
  stages : PerStage StageRec
  tracker : List IndexEntry
  report : ReportRec
  store : StoreRec
  pending : List Instr
deriving DecidableEq, Repr

/-- Why the machine stops with a fault. The manual names nothing that stops the part, so there is no such reason:
none is raised, which is safe. -/
inductive Fault where
deriving DecidableEq, Repr

/-- Why a command has no meaning. -/
inductive Refusal where
  /-- Raised by an arm of `exec` whose command has no meaning yet; safe: nothing can be proved of the command. -/
  | notModelled (mnemonic : String)
deriving DecidableEq, Repr

/-! ## Reset values -/

/-- The values of a head's settings after any reset: R7, R64, R100, R122, R149, R166. -/
def HeadSettings.reset (h : Head) : HeadSettings where
  faultLimit := 3
  stage := if h.num < 4 then .s0 else .s1
  powerLimit := 15000
  stalePolicy := .holdLast
  floor := 2
  ceiling := 13
  settleStep := 4
  startMode := .fromFloor
  angleWindow := 8
  probePower := 1000
  driftLimit := 0
  driftPolicy := .perJob
  loadShiftLimit := 15
  channelEnabled := true
  staleLimit := 30
  lostLimit := 200
  clampReport := .none
  flowGrace := 500

/-- The tuning record after any reset (R121). -/
def TuningRec.reset : TuningRec where
  currentTap := 2
  lockState := .none
  skipTap := none
  lastLock := none
  driftCount := 0
  ceilingReached := false
  lockHeld := true

/-- The temperature record after any reset (R141). -/
def TempRec.reset : TempRec where
  lastReceived := none
  lastValue := none
  underFlag := false
  overFlag := false
  tf := none
  lastTaken := none
  lostTimer := none

/-- A line input after a reset (R153): its taken level is unknown and its filter timer is as given; the pin is what
stands on the line. -/
def Input.reset (pin : Level) (filter : Option Nat) : Input where
  pin := pin
  taken := none
  filter := filter

/-- What a head holds after any reset (R26, R121, R141, R151), with the pins and the filter timers given. -/
def HeadRec.reset (h : Head) (clampPin flowPin : Level) (filter : Option Nat) : HeadRec where
  mode := .idle
  queue := []
  joint := none
  faultCount := 0
  settings := HeadSettings.reset h
  tuning := TuningRec.reset
  temp := TempRec.reset
  line := { clamp := Input.reset clampPin filter, flow := Input.reset flowPin filter, graceTimer := none }

/-- What a stage holds after any reset (R74, R80, R100), with the orders sent to it. -/
def StageRec.reset (orders : List StageOrder) : StageRec where
  mode := .off
  settleTimer := none
  busReady := false
  matrix := none
  segment := none
  completionTimer := none
  fault := none
  powerLimit := 12000
  gap := 3
  settleTime := 800
  active := none
  pendingFrame := none
  running := none
  deferred := false
  pointer := none
  lastServed := none
  lastDecision := none
  orders := orders

/-- The report block after any reset (R170, R173, R175). -/
def ReportRec.reset : ReportRec where
  results := []
  events := []
  eventsLost := 0
  attn := false

/-- The interlock record of the cell after any reset (R151), with the pins and the filter timers given. -/
def CellRec.reset (estopPin motionPin keyPin : Level) (filter : Option Nat) : CellRec where
  mode := .hold
  causeEstop := false
  causeMotion := false
  estop := Input.reset estopPin filter
  motion := Input.reset motionPin filter
  key := Input.reset keyPin filter
  motionPolicy := .keep
  eraseSuspend := false

/-- The recipe store with the given entries and no operation in flight, as it comes up at a power-on reset
(R177, R185). -/
def StoreRec.reset (entries : Vector Entry 64) : StoreRec where
  mode := .ready
  op := none
  opTimer := none
  remaining := none
  suspendTimer := none
  carried := false
  programError := false
  eraseError := false
  workingEnable := false
  masterEnable := false
  waiting := []
  entries := entries

/-- The cell link after a reset of the given kind, with the level of the strap pin (R187, R188, R195). -/
def LinkRec.reset (kind : ResetKind) (strap : Rate) : LinkRec where
  receiver := .hunting
  gapTimer := none
  processing := none
  waiting := none
  replies := []
  linkErrors := 0
  overruns := 0
  rate := strap
  strap := strap
  lastReset := kind

/-- The part right after a power-on reset. DESIGN CHOICE (log entries 1, 14, 15, 26): the clock and the choice
counter stand at 0, every line input's pin is low, the strap selects 115,200 baud and every recipe entry is BLANK. -/
def State.reset : State where
  now := 0
  inReset := false
  choices := 0
  link := LinkRec.reset .powerOn .baud115200
  cell := CellRec.reset .low .low .low (some 2)
  heads := PerHead.make fun h => HeadRec.reset h .low .low (some 2)
  stages := { s0 := StageRec.reset [.busOff], s1 := StageRec.reset [.busOff] }
  tracker := []
  report := ReportRec.reset
  store := StoreRec.reset (Vector.replicate 64 .blank)
  pending := []

end Sys2Proof.Machine
end

