-- ==== Sys2Proof/Machine/Params.lean ====
section
/-! DEFINITION. The fixed numbers of the part (spec/00, "The GB8 in numbers") and the codes its choices have on the
cell link (R190, R191, R192). -/

namespace Sys2Proof.Machine

/-- Jobs a head's queue holds (R3). -/
def queueCapacity : Nat := 4
/-- Open indexes the tracker holds (R21). -/
def trackerCapacity : Nat := 4
/-- Result places (R170). -/
def resultCapacity : Nat := 32
/-- Event places (R173). -/
def eventCapacity : Nat := 16
/-- The highest energy a joint holds, in J (R68). -/
def maxEnergy : Nat := 999999
/-- The highest average power counted, in W (R66). -/
def maxCountedPower : Nat := 16000
/-- The lowest and the highest temperature, in °C (R140). -/
def minTemp : Nat := 150
def maxTemp : Nat := 1100
/-- The completion timer's margin after the segment's ordered end, in ms (R110). -/
def completionMargin : Nat := 20
/-- The input filter time, in ms (R152). -/
def filterTime : Nat := 2
/-- The receiver's gap time, in ms (R187). -/
def gapTime : Nat := 5
/-- The time of a program, of an erase and of a suspension, in ms (R178, R179, R182). -/
def programTime : Nat := 6
def eraseTime : Nat := 400
def suspendTime : Nat := 1
/-- Where two-byte and one-byte counts stay (R21, R187, R188; R133, R173). -/
def maxWord : Nat := 65535
def maxByte : Nat := 255
/-- Where the run time of a result stays (R168). -/
def maxRunTime : Nat := 4294967295
/-- The longest payload of a frame (R186). -/
def maxPayload : Nat := 240
/-- The sync byte (R186). -/
def syncByte : Byte := 0xC3

/-! ## Refusal reasons (R190) -/

/-- The refusal reasons, in the order of their codes (R190). -/
inductive Reason where
  | unknownKind | badLength | badField | badHead | headDisabled | queueFull | duplicateTag | notFound | busy
  | indexFull | indexClosed | frameInvalid | frameConflict | interlock | storeBusy | storeErrorPending | isProtected
  | notBlank | badRecipe
deriving DecidableEq, Repr

/-- Reason codes 0x01 to 0x13 (R190). -/
def Reason.code : Reason → Nat
  | .unknownKind => 0x01 | .badLength => 0x02 | .badField => 0x03 | .badHead => 0x04 | .headDisabled => 0x05
  | .queueFull => 0x06 | .duplicateTag => 0x07 | .notFound => 0x08 | .busy => 0x09 | .indexFull => 0x0A
  | .indexClosed => 0x0B | .frameInvalid => 0x0C | .frameConflict => 0x0D | .interlock => 0x0E | .storeBusy => 0x0F
  | .storeErrorPending => 0x10 | .isProtected => 0x11 | .notBlank => 0x12 | .badRecipe => 0x13

/-- The 26 request kinds (R191). -/
inductive Kind where
  | identify | getStatus | reset | setCell | setHead | setStage | loadFrame | submitJob | cancelJob | flushQueue
  | startHeads | hold | resume | power | clearFault | getHead | getStage | getFrame | fetchResults | fetchEvents
  | readRecipe | programRecipe | eraseBank | getStore | clearStore | setProtect
deriving DecidableEq, Repr

/-- Kind codes 0x01 to 0x1A (R191). -/
def Kind.code : Kind → Nat
  | .identify => 0x01 | .getStatus => 0x02 | .reset => 0x03 | .setCell => 0x04 | .setHead => 0x05
  | .setStage => 0x06 | .loadFrame => 0x07 | .submitJob => 0x08 | .cancelJob => 0x09 | .flushQueue => 0x0A
  | .startHeads => 0x0B | .hold => 0x0C | .resume => 0x0D | .power => 0x0E | .clearFault => 0x0F
  | .getHead => 0x10 | .getStage => 0x11 | .getFrame => 0x12 | .fetchResults => 0x13 | .fetchEvents => 0x14
  | .readRecipe => 0x15 | .programRecipe => 0x16 | .eraseBank => 0x17 | .getStore => 0x18 | .clearStore => 0x19
  | .setProtect => 0x1A

/-- The kind a code names; 0x7F and every code above 0x1A name none (R190). -/
def Kind.ofCode? : Nat → Option Kind
  | 0x01 => some .identify | 0x02 => some .getStatus | 0x03 => some .reset | 0x04 => some .setCell
  | 0x05 => some .setHead | 0x06 => some .setStage | 0x07 => some .loadFrame | 0x08 => some .submitJob
  | 0x09 => some .cancelJob | 0x0A => some .flushQueue | 0x0B => some .startHeads | 0x0C => some .hold
  | 0x0D => some .resume | 0x0E => some .power | 0x0F => some .clearFault | 0x10 => some .getHead
  | 0x11 => some .getStage | 0x12 => some .getFrame | 0x13 => some .fetchResults | 0x14 => some .fetchEvents
  | 0x15 => some .readRecipe | 0x16 => some .programRecipe | 0x17 => some .eraseBank | 0x18 => some .getStore
  | 0x19 => some .clearStore | 0x1A => some .setProtect
  | _ => none

/-! ## Codes of choices (R192) -/

/-- Outcomes, DONE 0x01 to ABORTED_MOTION 0x11 (R192, section 9.2). -/
def JointOutcome.code : JointOutcome → Nat
  | .done => 0x01 | .lowEnergy => 0x02 | .cancelled => 0x03 | .expired => 0x04 | .recipeMissing => 0x05
  | .noLock => 0x06 | .coupling => 0x07 | .tuneLimit => 0x08 | .overtemp => 0x09 | .overEnergy => 0x0A
  | .phaseTimeout => 0x0B | .sensorLost => 0x0C | .clampLost => 0x0D | .coolant => 0x0E | .stageFault => 0x0F
  | .abortedEstop => 0x10 | .abortedMotion => 0x11

/-- Head states (R192). -/
def HeadMode.code : HeadMode → Nat
  | .idle => 0x01 | .armed => 0x02 | .tuning => 0x03 | .heating => 0x04 | .stopping => 0x05 | .faulted => 0x06
  | .disabled => 0x07

/-- Stage states (R192). -/
def StageMode.code : StageMode → Nat
  | .off => 0x01 | .settling => 0x02 | .ready => 0x03 | .fault => 0x04

/-- STAGE_FAULT causes (R192). -/
def FaultCause.code : FaultCause → Nat
  | .trip => 0x01 | .busNotReady => 0x02 | .busLost => 0x03 | .linkTimeout => 0x04

/-- Slot rules (R192). -/
def RuleName.code : RuleName → Nat
  | .passive => 0x01 | .fixed => 0x02 | .prefer => 0x03 | .rotate => 0x04 | .chain => 0x05 | .split => 0x06

/-- A fallback has the code of its rule (R192). -/
def Fallback.code : Fallback → Nat
  | .passive => RuleName.passive.code | .rotate => RuleName.rotate.code

/-- Device modes (R192). -/
def DeviceMode.code : DeviceMode → Nat
  | .run => 0x01 | .hold => 0x02 | .interlocked => 0x03

/-- Store states (R192). -/
def StoreMode.code : StoreMode → Nat
  | .ready => 0x01 | .programming => 0x02 | .erasing => 0x03 | .eraseSuspended => 0x04

/-- Lock states (R192). -/
def LockState.code : LockState → Nat
  | .none => 0x01 | .searching => 0x02 | .locked => 0x03

/-- Decision bases (R192). -/
def Basis.code : Basis → Nat
  | .computed => 0x01 | .holdLast => 0x02 | .stepDown => 0x03

/-- Slot decision outcomes (R192). -/
def DecisionOutcome.code : DecisionOutcome → Nat
  | .passiveRule => 0x01 | .noneWanting => 0x02 | .heatSent => 0x03 | .probeSent => 0x04 | .zeroPower => 0x05
  | .windowShort => 0x06 | .overtaken => 0x07

/-- Slot parts (R192). -/
def Part.code : Part → Nat
  | .whole => 0x01 | .first => 0x02 | .second => 0x03

/-- Stale policies (R192). -/
def StalePolicy.code : StalePolicy → Nat
  | .holdLast => 0x01 | .stepDown => 0x02

/-- Tuning start modes (R192). -/
def TuneStart.code : TuneStart → Nat
  | .fromFloor => 0x01 | .fromLast => 0x02

/-- Drift policies (R192). -/
def DriftPolicy.code : DriftPolicy → Nat
  | .perJob => 0x01 | .running => 0x02

/-- Clamp edge reports (R192). -/
def ClampReport.code : ClampReport → Nat
  | .none => 0x01 | .rise => 0x02 | .fall => 0x03 | .both => 0x04

/-- Motion policies (R192). -/
def MotionPolicy.code : MotionPolicy → Nat
  | .keep => 0x01 | .flush => 0x02

/-- The rate in use (R194). -/
def rateCode : Rate → Nat
  | .baud115200 => 0x00 | .baud460800 => 0x01

/-- The kind of the last reset (R194). -/
def ResetKind.code : ResetKind → Nat
  | .powerOn => 0x00 | .line => 0x01 | .request => 0x02

/-- Taken levels (R192): 0x00 unknown, 0x01 released, closed or good, and 0x02 asserted, open or low. Each input's
pin is high for the first of these and low for the second (spec/00). -/
def takenCode : Option Level → Nat
  | none => 0x00 | some .high => 0x01 | some .low => 0x02

/-- Two-valued settings, marks and flags (R192). -/
def flagCode (b : Bool) : Nat := if b then 0x01 else 0x00

/-- What a code byte of a choice stands for; no code, no choice. -/
def StartMode.ofCode? : Nat → Option StartMode
  | 0x01 => some .immediate | 0x02 => some .onStart | 0x03 => some .onClamp | _ => none

/-- A stale policy by its code (R192). -/
def StalePolicy.ofCode? : Nat → Option StalePolicy
  | 0x01 => some .holdLast | 0x02 => some .stepDown | _ => none

/-- A tuning start mode by its code (R192). -/
def TuneStart.ofCode? : Nat → Option TuneStart
  | 0x01 => some .fromFloor | 0x02 => some .fromLast | _ => none

/-- A drift policy by its code (R192). -/
def DriftPolicy.ofCode? : Nat → Option DriftPolicy
  | 0x01 => some .perJob | 0x02 => some .running | _ => none

/-- A clamp edge report by its code (R192). -/
def ClampReport.ofCode? : Nat → Option ClampReport
  | 0x01 => some .none | 0x02 => some .rise | 0x03 => some .fall | 0x04 => some .both | _ => Option.none

/-- A motion policy by its code (R192). -/
def MotionPolicy.ofCode? : Nat → Option MotionPolicy
  | 0x01 => some .keep | 0x02 => some .flush | _ => none

/-- A fallback by its code (R93, R192). -/
def Fallback.ofCode? : Nat → Option Fallback
  | 0x01 => some .passive | 0x04 => some .rotate | _ => none

/-- A two-valued setting by its byte (R192). -/
def flagOfCode? : Nat → Option Bool
  | 0x00 => some false | 0x01 => some true | _ => none

end Sys2Proof.Machine
end

