-- ==== Sys2Proof/Machine/Wire.lean ====
section
/-! DEFINITION. How numbers, optional fields, lists and records stand in the bytes of the cell link (R186, R192,
R193), and the CRC of a frame. -/

namespace Sys2Proof.Machine

/-- `n` bytes of a number, high byte first (R192). -/
def bytesBE : Nat → Nat → List Byte
  | 0, _ => []
  | n + 1, v => BitVec.ofNat 8 (v / 256 ^ n) :: bytesBE n v

/-- The number that bytes hold, high byte first (R192). -/
def numOfBytes (bs : List Byte) : Nat := bs.foldl (fun acc b => acc * 256 + b.toNat) 0

/-- A number in a reply field of `n` bytes. What a field carries for a number it does not hold is not stated: free
(log entry 30). -/
def numField (n v : Nat) : List Byte :=
  if v < 256 ^ n then bytesBE n v else bytesBE n (Config.unstatedField n v)

/-- One byte of a choice, flag, count or small number. -/
def byteField (v : Nat) : List Byte := numField 1 v

/-- A flag in one byte (R192). -/
def flagField (b : Bool) : List Byte := byteField (flagCode b)

/-- A signed number of `n` bytes as two's complement (R193). -/
def intField (n : Nat) (v : Int) : List Byte :=
  if 0 ≤ v then numField n v.toNat else numField n ((256 ^ n : Int) + v).toNat

/-- An optional field of `width` bytes: its presence byte, and 0 where it is absent (R193). -/
def optField (width : Nat) (v : Option (List Byte)) : List Byte :=
  match v with
  | some bs => byteField 1 ++ bs
  | none => byteField 0 ++ bytesBE width 0

/-- An optional number of `n` bytes (R193). -/
def optNum (n : Nat) (v : Option Nat) : List Byte := optField n (v.map (numField n))

/-- A time in ms whose range is not stated: four bytes (R193). -/
def timeField (v : Nat) : List Byte := numField 4 v

/-- A list, preceded by its count (R193). -/
def listField {α : Type} (f : α → List Byte) (xs : List α) : List Byte := byteField xs.length ++ xs.flatMap f

/-- A head as its number, 0xFF for none (R193). -/
def headField : Option Head → List Byte
  | some h => byteField h.num
  | none => byteField 0xFF

/-! ## CRC-16 (R186) -/

/-- One bit of the CRC with polynomial 0x1021, without reflection. -/
def crcShift (c : BitVec 16) : BitVec 16 := if c.msb then (c <<< 1) ^^^ 0x1021#16 else c <<< 1

/-- The CRC after one more byte. -/
def crcByte (c : BitVec 16) (b : Byte) : BitVec 16 :=
  let start := c ^^^ (b.setWidth 16 <<< 8)
  crcShift (crcShift (crcShift (crcShift (crcShift (crcShift (crcShift (crcShift start)))))))

/-- The CRC of bytes, with initial value 0xFFFF and no final inversion (R186). -/
def crc16 (bs : List Byte) : BitVec 16 := bs.foldl crcByte 0xFFFF#16

/-- The bytes the CRC is computed over: length, kind, tag and payload (R186). -/
def frameBody (kind tag : Byte) (payload : List Byte) : List Byte :=
  BitVec.ofNat 8 payload.length :: kind :: tag :: payload

/-- A frame as it stands on the line: sync byte, length, kind, tag, payload and CRC, high byte first (R186, 11.4). -/
def frameBytes (kind tag : Byte) (payload : List Byte) : List Byte :=
  syncByte :: frameBody kind tag payload ++ bytesBE 2 (crc16 (frameBody kind tag payload)).toNat

/-- The bytes of a reply on the line (R186, R189). -/
def Reply.bytes (r : Reply) : List Byte := frameBytes r.kind r.tag r.payload

/-! ## Result and event records (11.4) -/

/-- An entry of a result's phase list: number, duration in ms (at most 65,535) and energy in J. -/
def phaseEntryBytes (e : PhaseEntry) : List Byte :=
  byteField e.number ++ numField 2 (min (e.duration.getD 0) maxWord) ++ numField 3 (e.energy.getD 0)

/-- A result record (11.4). -/
def resultBytes (r : ResultRec) : List Byte :=
  numField 2 r.jobTag ++ numField 2 r.indexTag ++ byteField r.head.num ++ byteField r.recipe ++
    byteField r.outcome.code ++ numField 3 r.energy ++ numField 2 (r.peak.getD 0) ++ numField 4 r.runTime ++
    byteField r.drift ++ flagField r.lock.isSome ++ byteField ((r.lock.map LockRecord.tap).getD 0) ++
    numField 2 ((r.lock.map LockRecord.load).getD 0) ++ listField phaseEntryBytes r.phaseList

/-- Event kind codes, in the order of R172's table (R192). -/
def eventKindCode : Event → Nat
  | .indexDone .. => 0x01 | .headFault _ => 0x02 | .frameAdopted _ => 0x03 | .stageReady _ => 0x04
  | .stageFault .. => 0x05 | .loadShift .. => 0x06 | .coilDrift .. => 0x07 | .estop _ => 0x08 | .motion _ => 0x09
  | .clampRise _ => 0x0A | .clampFall _ => 0x0B | .flowLow _ => 0x0C | .flowOk _ => 0x0D | .coolantFault _ => 0x0E
  | .storeDone .. => 0x0F

/-- The subject of an event: head, stage, index tag or bank, 0 where absent (R172, 11.4). -/
def eventSubject : Event → Nat
  | .indexDone tag _ _ => tag
  | .headFault h => h.num
  | .frameAdopted g => g.num
  | .stageReady g => g.num
  | .stageFault g _ => g.num
  | .loadShift h _ => h.num
  | .coilDrift h _ => h.num
  | .estop _ => 0
  | .motion _ => 0
  | .clampRise h => h.num
  | .clampFall h => h.num
  | .flowLow h => h.num
  | .flowOk h => h.num
  | .coolantFault h => h.num
  | .storeDone bank _ _ => bank.val

/-- The four value bytes of an event (11.4). -/
def eventValue : Event → List Byte
  | .indexDone _ ended failed => numField 2 ended ++ numField 2 failed
  | .stageFault _ cause => numField 4 cause.code
  | .loadShift _ load => numField 4 load
  | .coilDrift _ tap => numField 4 tap
  | .estop asserted => numField 4 (flagCode asserted)
  | .motion .released => numField 4 0x00
  | .motion .assertedNotInterlocked => numField 4 0x01
  | .motion .assertedInterlocked => numField 4 0x02
  | .storeDone _ (.program entry) passed =>
      byteField 0x01 ++ byteField entry.val ++ byteField 0 ++ byteField (if passed then 0x00 else 0x01)
  | .storeDone _ .erase passed =>
      byteField 0x02 ++ byteField 0 ++ byteField 0 ++ byteField (if passed then 0x00 else 0x01)
  | .headFault _ => numField 4 0
  | .frameAdopted _ => numField 4 0
  | .stageReady _ => numField 4 0
  | .clampRise _ => numField 4 0
  | .clampFall _ => numField 4 0
  | .flowLow _ => numField 4 0
  | .flowOk _ => numField 4 0
  | .coolantFault _ => numField 4 0

/-- An event record, seven bytes (11.4). -/
def eventBytes (e : Event) : List Byte := byteField (eventKindCode e) ++ numField 2 (eventSubject e) ++ eventValue e

end Sys2Proof.Machine
end

