-- ==== Sys2Proof/Machine/Ops.lean ====
section
/-! DEFINITION. The shared operations over State: access to heads, stages, joints and line inputs, the clock, the
event queue (R173) and ATTN (R175), the orders on the stage links, the index tracker (R21 to R24), and the answer of a
request with its reply (R189). -/

namespace Sys2Proof.Machine

/-! ## Clock and free choices -/

/-- The clock at the time of a command; it does not run back (log entry 1). -/
def State.advance (s : State) (t : Nat) : State := { s with now := max s.now t }

/-- The state after one free choice has been made (log entry 26). -/
def State.chose (s : State) : State := { s with choices := s.choices + 1 }

/-! ## Heads, joints and stages -/

/-- What head `h` holds. -/
def State.head (s : State) (h : Head) : HeadRec := s.heads.get h

/-- Head `h` holds `r`. -/
def State.setHead (s : State) (h : Head) (r : HeadRec) : State := { s with heads := s.heads.set h r }

/-- Head `h` is changed by `f`. -/
def State.modHead (s : State) (h : Head) (f : HeadRec → HeadRec) : State := s.setHead h (f (s.head h))

/-- What stage `g` holds. -/
def State.stage (s : State) (g : Stage) : StageRec := s.stages.get g

/-- Stage `g` holds `r`. -/
def State.setStage (s : State) (g : Stage) (r : StageRec) : State := { s with stages := s.stages.set g r }

/-- Stage `g` is changed by `f`. -/
def State.modStage (s : State) (g : Stage) (f : StageRec → StageRec) : State := s.setStage g (f (s.stage g))

/-- The head's active joint, if any, is changed by `f`. -/
def State.modJoint (s : State) (h : Head) (f : Joint → Joint) : State :=
  s.modHead h fun r => { r with joint := r.joint.map f }

/-- The stage the head is mapped to (R100). -/
def State.stageOf (s : State) (h : Head) : Stage := (s.head h).settings.stage

/-- The members of a stage, in ascending head number (R100). -/
def State.members (s : State) (g : Stage) : List Head := Head.all.filter fun h => s.stageOf h = g

/-- A segment is in flight for the head's joint (R15): its stage holds an order for the head not yet answered. -/
def State.inFlight (s : State) (h : Head) : Bool :=
  match (s.stage (s.stageOf h)).segment with
  | some seg => seg.head = h
  | none => false

/-- The head has a started joint: it is TUNING, HEATING or STOPPING (R103, R159). -/
def HeadMode.started : HeadMode → Bool
  | .tuning => true
  | .heating => true
  | .stopping => true
  | .disabled => false
  | .idle => false
  | .armed => false
  | .faulted => false

/-- The head is ARMED, TUNING, HEATING or STOPPING (R6, R7). -/
def HeadMode.occupied (m : HeadMode) : Bool := m.started || m = .armed

/-- The number of active joints of all heads (R8). -/
def State.activeJoints (s : State) : Nat := (Head.all.filter fun h => (s.head h).joint.isSome).length

/-- Jobs queued on all heads. -/
def State.queuedJobs (s : State) : Nat := (Head.all.map fun h => (s.head h).queue.length).sum

/-! ## Line inputs (R151) -/

/-- A line input of the part. -/
def State.input (s : State) : LineInput → Input
  | .estop => s.cell.estop
  | .motion => s.cell.motion
  | .key => s.cell.key
  | .clamp h => (s.head h).line.clamp
  | .flow h => (s.head h).line.flow

/-- A line input is replaced. -/
def State.setInput (s : State) (i : LineInput) (x : Input) : State :=
  match i with
  | .estop => { s with cell := { s.cell with estop := x } }
  | .motion => { s with cell := { s.cell with motion := x } }
  | .key => { s with cell := { s.cell with key := x } }
  | .clamp h => s.modHead h fun r => { r with line := { r.line with clamp := x } }
  | .flow h => s.modHead h fun r => { r with line := { r.line with flow := x } }

/-- The input stands at the level that permits: ESTOP and MOTION released, CLAMP and KEY closed, FLOW good. An unknown
level counts as the one that forbids (R151). -/
def Input.permits (x : Input) : Bool := x.taken = some .high

/-! ## Events and ATTN (R173, R175) -/

/-- ATTN is asserted while either queue holds a record (R175). -/
def ReportRec.withAttn (r : ReportRec) : ReportRec :=
  { r with attn := !(r.results.isEmpty && r.events.isEmpty) }

/-- An event is offered to the event queue: placed as the newest, or dropped and counted (R173). -/
def ReportRec.offer (r : ReportRec) (e : Event) : ReportRec :=
  if r.events.length < eventCapacity then ReportRec.withAttn { r with events := r.events ++ [e] }
  else { r with eventsLost := min (r.eventsLost + 1) maxByte }

/-- A block raises an event (R173). -/
def State.raise (s : State) (e : Event) : State := { s with report := s.report.offer e }

/-- A result record is placed as the newest (R170). -/
def State.placeResult (s : State) (r : ResultRec) : State :=
  { s with report := ReportRec.withAttn { s.report with results := s.report.results ++ [r] } }

/-! ## Orders on the stage links -/

/-- An order is sent on a stage link (log entry 21). -/
def State.send (s : State) (g : Stage) (o : StageOrder) : State :=
  s.modStage g fun r => { r with orders := r.orders ++ [o] }

/-- The segment in flight is dropped and the completion timer stopped (R106, R108, R110). -/
def State.dropSegment (s : State) (g : Stage) : State :=
  s.modStage g fun r => { r with segment := none, completionTimer := none }

/-- A cut order for the head's segment in flight is sent and its cut flag set (R114). -/
def State.cutSegment (s : State) (h : Head) : State :=
  let g := s.stageOf h
  (s.send g .cut).modStage g fun r => { r with segment := r.segment.map fun x => { x with cut := true } }

/-! ## The index tracker (R21 to R24) -/

/-- The tracker's entry for an index tag. -/
def trackerFind (t : List IndexEntry) (tag : Nat) : Option IndexEntry := t.find? fun e => e.tag = tag

/-- The tracker with the entry of the tag replaced. -/
def trackerPut (t : List IndexEntry) (e : IndexEntry) : List IndexEntry :=
  t.map fun x => if x.tag = e.tag then e else x

/-- The tracker without the entry of the tag. -/
def trackerDrop (t : List IndexEntry) (tag : Nat) : List IndexEntry := t.filter fun e => e.tag ≠ tag

/-- An accepted job is taken by the tracker (R22). -/
def trackerSubmit (t : List IndexEntry) (tag : Nat) (last : Bool) : List IndexEntry :=
  match trackerFind t tag with
  | some e => trackerPut t { e with outstanding := e.outstanding + 1, closed := e.closed || last }
  | none => t ++ [{ tag := tag, outstanding := 1, ended := 0, failed := 0, closed := last }]

/-- A queued job removed without activation takes 1 from outstanding (R23). -/
def IndexEntry.leave (e : IndexEntry) : IndexEntry := { e with outstanding := e.outstanding - 1 }

/-- A joint that ends takes 1 from outstanding and counts as ended, and as failed unless DONE (R21, R23). -/
def IndexEntry.endJoint (e : IndexEntry) (o : JointOutcome) : IndexEntry :=
  { e with outstanding := e.outstanding - 1, ended := min (e.ended + 1) maxWord,
           failed := if o = .done then e.failed else min (e.failed + 1) maxWord }

/-- The entry of the tag is changed and then checked: a closed entry with outstanding 0 is removed and INDEX_DONE
raised (R23). -/
def State.trackerTake (s : State) (tag : Nat) (f : IndexEntry → IndexEntry) : State :=
  match trackerFind s.tracker tag with
  | none => s
  | some e =>
    let e' := f e
    if e'.closed && e'.outstanding = 0 then
      State.raise { s with tracker := trackerDrop s.tracker tag } (.indexDone e'.tag e'.ended e'.failed)
    else { s with tracker := trackerPut s.tracker e' }

/-! ## Answers and replies (R189) -/

/-- A request's answer: a refusal with its reason, or an accept with the clamped mark and the reply data. -/
inductive Answer where
  | refuse (r : Reason)
  | accept (clamped : Bool) (data : List Byte)
deriving DecidableEq, Repr

/-- The reply built from an answer (R189). -/
def Answer.reply (a : Answer) (kind tag : Byte) (answersFrame resets : Bool) : Reply :=
  match a with
  | .refuse r =>
    { kind := 0x7F, tag := tag, payload := [kind, BitVec.ofNat 8 r.code], answersFrame := answersFrame,
      resets := false }
  | .accept clamped data =>
    { kind := kind + 0x80, tag := tag, payload := BitVec.ofNat 8 (flagCode clamped) :: data,
      answersFrame := answersFrame, resets := resets }

/-- The reply joins the transmitter behind those taken before it (R189). -/
def State.pushReply (s : State) (r : Reply) : State := { s with link := { s.link with replies := s.link.replies ++ [r] } }

/-- A request of kind `k` taken by its owner, which answers it: its reply is handed to the transmitter (R189). -/
def respond (k : Kind) (tag : Byte) (answersFrame : Bool) (owner : State → State × Answer) (s : State) : State :=
  (owner s).1.pushReply ((owner s).2.reply (BitVec.ofNat 8 k.code) tag answersFrame (k = .reset))

/-! ## Commands -/

/-- A command at a time: the clock moves, and a part held in reset does nothing more (R195, log entry 17). -/
def atTime (time : Nat) (s : State) (f : State → State) : Host.Outcome State Fault Refusal :=
  if s.inReset then .next (s.advance time) else .next (f (s.advance time))

/-- A timer's expiry (log entry 2): a stopped timer gives none; a running one is taken at its expiry time. -/
def atExpiry (timer : Option Nat) (s : State) (f : State → State) : Host.Outcome State Fault Refusal :=
  match timer with
  | none => .next s
  | some t => if s.inReset then .next s else .next (f (s.advance t))

/-- The heads in ascending number, each acted on where the test holds when its turn comes. -/
def State.eachHead (s : State) (test : State → Head → Bool) (act : Head → State → State) : State :=
  Head.all.foldl (fun s h => if test s h then act h s else s) s

end Sys2Proof.Machine
end

