-- ==== Sys2Proof/Machine/Recipes.lean ====
section
/-! DEFINITION. The recipe record: its bytes (R192, section 11.4) and its validation (R29, R30). -/

namespace Sys2Proof.Machine

/-- A two-byte number, high byte first. -/
def word2 (hi lo : Byte) : Nat := hi.toNat * 256 + lo.toNat

/-- A three-byte number, high byte first. -/
def word3 (hi mid lo : Byte) : Nat := (hi.toNat * 256 + mid.toNat) * 256 + lo.toNat

/-- The exit of a SOAK phase from its exit kind byte: 0x01 TIME, 0x02 ENERGY, and no other (R30, R192). -/
def soakExitOf (kind value : Nat) : Option SoakExit :=
  if kind = 0x01 then some (.time value) else if kind = 0x02 then some (.energy value) else none

/-- The first phase record of the bytes and the bytes after it; an unknown kind, an unknown exit kind or too few bytes
give none (R30, R192). -/
def parsePhase : List Byte → Option (Phase × List Byte)
  | [] => none
  | kind :: rest =>
    if kind = 0x01 then
      match rest with
      | t1 :: t0 :: r1 :: r0 :: kp :: b1 :: b0 :: n1 :: n0 :: x1 :: x0 :: l1 :: l0 :: tail =>
        some (.ramp (word2 r1 r0) ⟨word2 t1 t0, kp.toNat, word2 b1 b0, word2 n1 n0, word2 x1 x0, word2 l1 l0⟩, tail)
      | _ => none
    else if kind = 0x02 then
      match rest with
      | t1 :: t0 :: kp :: b1 :: b0 :: n1 :: n0 :: x1 :: x0 :: ek :: d2 :: d1 :: d0 :: l1 :: l0 :: tail =>
        (soakExitOf ek.toNat (word3 d2 d1 d0)).map fun e =>
          (.soak e ⟨word2 t1 t0, kp.toNat, word2 b1 b0, word2 n1 n0, word2 x1 x0, word2 l1 l0⟩, tail)
      | _ => none
    else if kind = 0x03 then
      match rest with
      | d1 :: d0 :: tail => some (.dwell (word2 d1 d0), tail)
      | _ => none
    else none

/-- Exactly `n` phase records and nothing after them (R192). -/
def parsePhases : Nat → List Byte → Option (List Phase)
  | 0, bs => if bs.isEmpty then some [] else none
  | n + 1, bs =>
    match parsePhase bs with
    | some (p, tail) => (parsePhases n tail).map (p :: ·)
    | none => none

/-- The recipe record in the bytes (11.4); none where a kind is unknown or the phase count does not match the phase
records (R192). -/
def parseRecipe : List Byte → Option Recipe
  | n :: k :: o1 :: o0 :: c2 :: c1 :: c0 :: m2 :: m1 :: m0 :: a1 :: a0 :: z1 :: z0 :: band :: rest =>
    (parsePhases n.toNat rest).map fun phases =>
      { filterDepth := k.toNat, overtempCeiling := word2 o1 o0, energyCeiling := word3 c2 c1 c0,
        minEnergy := word3 m2 m1 m0, rMin := word2 a1 a0, rMax := word2 z1 z0, exitBand := band.toNat,
        phases := phases }
  | _ => none

/-- The exit kind and the duration or threshold of a SOAK phase as bytes (11.4). -/
def soakExitBytes : SoakExit → List Byte
  | .time d => bytesBE 1 0x01 ++ bytesBE 3 d
  | .energy e => bytesBE 1 0x02 ++ bytesBE 3 e

/-- A phase record's bytes (11.4). -/
def phaseBytes : Phase → List Byte
  | .ramp rate f =>
    bytesBE 1 0x01 ++ bytesBE 2 f.tEnd ++ bytesBE 2 rate ++ bytesBE 1 f.kp ++ bytesBE 2 f.pBase ++
      bytesBE 2 f.pMin ++ bytesBE 2 f.pMax ++ bytesBE 2 f.timeLimit
  | .soak exit f =>
    bytesBE 1 0x02 ++ bytesBE 2 f.tEnd ++ bytesBE 1 f.kp ++ bytesBE 2 f.pBase ++ bytesBE 2 f.pMin ++
      bytesBE 2 f.pMax ++ soakExitBytes exit ++ bytesBE 2 f.timeLimit
  | .dwell d => bytesBE 1 0x03 ++ bytesBE 2 d

/-- A recipe record's bytes (11.4). -/
def recipeBytes (r : Recipe) : List Byte :=
  bytesBE 1 r.phases.length ++ bytesBE 1 r.filterDepth ++ bytesBE 2 r.overtempCeiling ++ bytesBE 3 r.energyCeiling ++
    bytesBE 3 r.minEnergy ++ bytesBE 2 r.rMin ++ bytesBE 2 r.rMax ++ bytesBE 1 r.exitBand ++
    r.phases.flatMap phaseBytes

/-! ## Validation -/

/-- The fields RAMP and SOAK phases share pass their checks (R30). -/
def heatFieldsValid (overtempCeiling : Nat) (f : HeatFields) : Bool :=
  decide (150 ≤ f.tEnd) && decide (f.tEnd < overtempCeiling) && decide (f.kp ≤ 200) && decide (f.pBase ≤ 15000) &&
    decide (f.pMax ≤ 15000) && decide (f.pMin ≤ f.pMax) && decide (100 ≤ f.timeLimit) && decide (f.timeLimit ≤ 30000)

/-- The exit of a SOAK phase passes its checks (R30). -/
def soakExitValid (timeLimit : Nat) : SoakExit → Bool
  | .time d => decide (1 ≤ d) && decide (d ≤ 30000) && decide (d ≤ timeLimit)
  | .energy e => decide (1 ≤ e) && decide (e ≤ 999999)

/-- A phase record passes the checks of R30. -/
def phaseValid (overtempCeiling : Nat) : Phase → Bool
  | .ramp rate f => heatFieldsValid overtempCeiling f && decide (1 ≤ rate) && decide (rate ≤ 500)
  | .soak exit f => heatFieldsValid overtempCeiling f && soakExitValid f.timeLimit exit
  | .dwell d => decide (1 ≤ d) && decide (d ≤ 30000)

/-- The phase is a RAMP or a SOAK phase. -/
def Phase.isHeat : Phase → Bool
  | .ramp _ _ => true
  | .soak _ _ => true
  | .dwell _ => false

/-- A recipe record passes every check of R29 and R30. -/
def Recipe.valid (r : Recipe) : Bool :=
  decide (1 ≤ r.phases.length) && decide (r.phases.length ≤ 6) && decide (r.filterDepth ≤ 3) &&
    decide (200 ≤ r.overtempCeiling) && decide (r.overtempCeiling ≤ 1100) && decide (r.energyCeiling ≤ 999999) &&
    decide (r.minEnergy ≤ 999999) && (decide (r.energyCeiling = 0) || decide (r.minEnergy ≤ r.energyCeiling)) &&
    decide (r.rMin ≤ r.rMax) && decide (r.exitBand ≤ 20) && r.phases.any Phase.isHeat &&
    r.phases.all (phaseValid r.overtempCeiling)

end Sys2Proof.Machine
end

