-- ==== Sys2Proof/Machine/HeatLaw.lean ====
section
/-! DEFINITION. The heat law unit (spec/02, spec/03): the trim, the phases of a joint and their exits, the heat
decision and the energy account. Everything here is arithmetic on the joint context. -/

namespace Sys2Proof.Machine

/-! ## Trim (R33) -/

/-- The trimmed value of a threshold (R33). -/
def trimmed (e trim : Nat) : Nat := e * trim / 100

/-- The trimmed threshold of a SOAK phase with exit ENERGY; no other phase has one (R32, R33). -/
def phaseThreshold (trim : Nat) : Phase → Option Nat
  | .soak (.energy e) _ => some (trimmed e trim)
  | .soak (.time _) _ => none
  | .ramp _ _ => none
  | .dwell _ => none

/-- The joint's heat fields as they are set up from the copied recipe (R11, R32). -/
def Joint.load (j : Joint) (r : Recipe) : Joint :=
  { j with recipe := some r, minEnergy := trimmed r.minEnergy j.job.trim,
           ceiling := trimmed r.energyCeiling j.job.trim,
           thresholds := r.phases.map (phaseThreshold j.job.trim),
           phase := none, exitPending := false, tEntry := none, phaseEntry := none, phaseList := [] }

/-- The current phase's record in the joint's copied recipe. -/
def Joint.currentPhase (j : Joint) : Option Phase :=
  match j.recipe, j.phase with
  | some r, some n => r.phases[n - 1]?
  | _, _ => none

/-! ## Phases (R35 to R40, R47) -/

/-- The duration timer a phase starts at its entry (R35). -/
def Phase.duration? : Phase → Option Nat
  | .soak (.time d) _ => some d
  | .soak (.energy _) _ => none
  | .ramp _ _ => none
  | .dwell d => some d

/-- The time limit a phase starts at its entry (R35). -/
def Phase.limit? : Phase → Option Nat
  | .ramp _ f => some f.timeLimit
  | .soak _ f => some f.timeLimit
  | .dwell _ => none

/-- Steps 1 to 6 of entering phase `n` but for the entry check (R35): `tf` is the head's present Tf. -/
def Joint.openPhase (j : Joint) (now : Nat) (tf : Option Nat) (n : Nat) (p : Phase) : Joint :=
  { j with phase := some n, phaseEntry := some now, entryEnergy := j.energy,
           phaseList := j.phaseList ++ [{ number := n, duration := none, energy := none }],
           exitPending := false,
           durationTimer := p.duration?.map (now + ·), limitTimer := p.limit?.map (now + ·),
           tEntry := match p, tf with
             | .ramp _ _, some t => some t
             | _, _ => j.tEntry }

/-- The newest entry of a phase list takes a duration and an energy (R40, R169). -/
def closeLast (duration energy : Nat) : List PhaseEntry → List PhaseEntry
  | [] => []
  | [e] => [{ e with duration := some duration, energy := some energy }]
  | e :: f :: rest => e :: closeLast duration energy (f :: rest)

/-- The phase energy (R70). -/
def Joint.phaseEnergy (j : Joint) : Nat := j.energy - j.entryEnergy

/-- The time since the phase's entry (R35). -/
def Joint.elapsed (j : Joint) (now : Nat) : Nat := now - j.phaseEntry.getD now

/-- The phase list with its newest entry closed at `now` (R40, R169). -/
def Joint.closedList (j : Joint) (now : Nat) : List PhaseEntry :=
  closeLast (j.elapsed now) j.phaseEnergy j.phaseList

/-- The current phase is closed (steps 1 and 2 of R40). -/
def Joint.closePhase (j : Joint) (now : Nat) : Joint :=
  { j with durationTimer := none, limitTimer := none, phaseList := j.closedList now }

/-- The outcome with which the recipe ends (R47). -/
def Joint.recipeEnd (j : Joint) : JointOutcome := if j.minEnergy ≤ j.energy then .done else .lowEnergy

/-- The RAMP exit holds at `t` (R36, R37): Tf ≥ T_end − exit band. -/
def rampMet (t tEnd band : Nat) : Bool := decide (tEnd ≤ t + band)

/-- Phases are entered from number `n` on, through those that exit at their entry (R35, R36, R40). Where none is left
the recipe has ended, with the outcome raised (R47). -/
def Joint.enterPhases (now : Nat) (tf : Option Nat) (band : Nat) :
    List Phase → Nat → Joint → Joint × Option JointOutcome
  | [], _, j => (j, some j.recipeEnd)
  | p :: rest, n, j =>
    match p, tf with
    | .ramp _ f, some t =>
      if rampMet t f.tEnd band then
        enterPhases now tf band rest (n + 1) ((j.openPhase now tf n p).closePhase now)
      else (j.openPhase now tf n p, none)
    | _, _ => (j.openPhase now tf n p, none)

/-- The first phase is entered (R34). -/
def Joint.enterFirst (j : Joint) (now : Nat) (tf : Option Nat) : Joint × Option JointOutcome :=
  match j.recipe with
  | some r => Joint.enterPhases now tf r.exitBand r.phases 1 j
  | none => (j, none)

/-- The current phase exits (R40). -/
def Joint.exitPhase (j : Joint) (now : Nat) (tf : Option Nat) : Joint × Option JointOutcome :=
  match j.recipe, j.phase with
  | some r, some n => Joint.enterPhases now tf r.exitBand (r.phases.drop n) (n + 1) (j.closePhase now)
  | _, _ => (j, none)

/-! ## Energy (R66 to R68, R39, R41, R43) -/

/-- The segment energy in W·ms (R66). -/
def segmentEnergy (power onTime ordered : Nat) : Nat := min power maxCountedPower * min onTime ordered

/-- A report's energy is counted into E_J and its remainder (R67, R68). -/
def Joint.count (j : Joint) (eSeg : Nat) : Joint :=
  let total := j.remainder + eSeg
  let risen := j.energy + total / 1000
  if maxEnergy < risen then { j with energy := maxEnergy, remainder := 0 }
  else { j with energy := risen, remainder := total % 1000 }

/-- The energy ceiling guard is met (R43); a recipe ceiling of 0 turns it off. -/
def Joint.overCeiling (j : Joint) : Bool :=
  match j.recipe with
  | some r => !(r.energyCeiling = 0) && decide (j.ceiling ≤ j.energy)
  | none => false

/-- The trimmed threshold of the current phase, where it is a SOAK phase with exit ENERGY (R39). -/
def Joint.threshold (j : Joint) : Option Nat :=
  match j.phase with
  | some n => (j.thresholds[n - 1]?).join
  | none => none

/-- Steps 3 and 4 of R41: the energy exit, and a pending exit. -/
def Joint.reportExits (j : Joint) (now : Nat) (tf : Option Nat) : Joint × Option JointOutcome :=
  match j.threshold with
  | some e => if e ≤ j.phaseEnergy then j.exitPhase now tf
              else if j.exitPending then j.exitPhase now tf else (j, none)
  | none => if j.exitPending then j.exitPhase now tf else (j, none)

/-! ## The heat decision (R49 to R63) -/

/-- The ramp target (R51). -/
def rampTarget (tEnd tEntry rate t : Nat) : Nat := min tEnd (tEntry + rate * t / 1000)

/-- The raw power request (R54). -/
def rawPower (pBase kp : Nat) (error : Int) : Int := pBase + kp * error

/-- The request rounded to 10 W, a value ending in 5 toward the larger number (R55). -/
def roundPower (raw : Int) : Int := (raw + 5) / 10 * 10

/-- The cap (R56). -/
def powerCap (pMax headLimit stageLimit : Nat) : Nat := min pMax (min headLimit stageLimit) / 10 * 10

/-- The lower bound (R57). -/
def powerFloor (pMin : Nat) : Nat := (pMin + 9) / 10 * 10

/-- The request held between the lower bound and the cap; the cap where the lower bound is above it (R57). -/
def clampPower (request : Int) (lower cap : Nat) : Nat :=
  if cap < lower then cap
  else if request < lower then lower
  else if (cap : Int) < request then cap
  else request.toNat

/-- The power of a probe segment (R59). -/
def probeSegmentPower (probePower headLimit stageLimit : Nat) : Nat :=
  min probePower (min headLimit stageLimit / 10 * 10)

/-- What a heat decision reads besides the joint (R49). -/
structure HeatInputs where
  now : Nat
  tf : Option Nat
  lastTaken : Option Nat
  staleLimit : Nat
  stalePolicy : StalePolicy
  headLimit : Nat
  stageLimit : Nat

/-- The target of a decision in the phase, where the joint has one (R51, R52, R53). -/
def Joint.target (j : Joint) (now : Nat) : Phase → Option Nat
  | .ramp rate f => j.tEntry.map fun t => rampTarget f.tEnd t rate (j.elapsed now)
  | .soak _ f => some f.tEnd
  | .dwell _ => none

/-- The sample age at the decision (R60). -/
def HeatInputs.age (x : HeatInputs) : Option Nat := x.lastTaken.map (x.now - ·)

/-- The sample is stale: its age is above the stale limit, or there is none (R60). -/
def HeatInputs.stale (x : HeatInputs) : Bool :=
  match x.age with
  | some a => decide (x.staleLimit < a)
  | none => true

/-- The decision record of a stale decision, or of one without Tf or target (R53, R60). -/
def Joint.staleDecision (j : Joint) (x : HeatInputs) (f : HeatFields) : DecisionRecord :=
  let cap := powerCap f.pMax x.headLimit x.stageLimit
  let lower := powerFloor f.pMin
  let request : Nat := match x.stalePolicy, j.lastSetpoint with
    | .holdLast, some p => p
    | _, _ => f.pMin
  { time := x.now - j.startTime.getD x.now,
    basis := match x.stalePolicy with | .holdLast => .holdLast | .stepDown => .stepDown,
    age := x.age, target := none, error := none, cap := cap, lowerBound := lower,
    setpoint := clampPower request lower cap, orderSent := false }

/-- The decision record of a decision on a fresh sample (R51 to R57). -/
def Joint.freshDecision (j : Joint) (x : HeatInputs) (f : HeatFields) (target tf : Nat) : DecisionRecord :=
  let cap := powerCap f.pMax x.headLimit x.stageLimit
  let lower := powerFloor f.pMin
  let error : Int := (target : Int) - tf
  { time := x.now - j.startTime.getD x.now, basis := .computed, age := x.age, target := some target,
    error := some error, cap := cap, lowerBound := lower,
    setpoint := clampPower (roundPower (rawPower f.pBase f.kp error)) lower cap, orderSent := false }

/-- The fields RAMP and SOAK phases share; a DWELL phase has none (R28). -/
def Phase.heat? : Phase → Option HeatFields
  | .ramp _ f => some f
  | .soak _ f => some f
  | .dwell _ => none

/-- The heat decision of a joint in the phase (R49): the decision record with its setpoint, with no order sent yet. No
decision is made in a DWELL phase (R50). -/
def Joint.heatDecision (j : Joint) (x : HeatInputs) (p : Phase) : Option DecisionRecord :=
  p.heat?.map fun f =>
    match x.stale, j.target x.now p, x.tf with
    | false, some target, some tf => j.freshDecision x f target tf
    | _, _, _ => j.staleDecision x f

end Sys2Proof.Machine
end

