-- ==== Sys2Proof/Machine/Joints.lean ====
section
/-! DEFINITION. The job manager (spec/01): the start of a joint, end causes, the end of a joint, and activation with
its re-tries, together with the recipe fetches they make of the store (R181, R182). -/

namespace Sys2Proof.Machine

/-! ## Start (R12, R13) -/

/-- All start conditions of R13 hold for the head. -/
def State.canStart (s : State) (h : Head) : Bool :=
  let r := s.head h
  match r.joint with
  | some j =>
    r.mode = .armed && j.recipe.isSome && j.startSeen && r.line.clamp.permits && r.line.flow.permits &&
      s.cell.motion.permits && s.cell.mode = .run && (s.stage r.settings.stage).mode = .ready
  | none => false

/-- The tuner sets up its tap search at the start of a joint (R123). -/
def TuningRec.start (t : TuningRec) (x : HeadSettings) : TuningRec :=
  match x.startMode, t.lastLock with
  | .fromLast, some l =>
    if x.floor ≤ l.tap && l.tap ≤ x.ceiling then
      { t with lockState := .searching, currentTap := l.tap, skipTap := some l.tap }
    else { t with lockState := .searching, currentTap := x.floor, skipTap := none }
  | _, _ => { t with lockState := .searching, currentTap := x.floor, skipTap := none }

/-- A joint starts: the five steps of R13, the tap search of R123 and the lost timer of R146. -/
def HeadRec.start (r : HeadRec) (now : Nat) : HeadRec :=
  { r with joint := r.joint.map fun j => { j with armTimer := none, startTime := some now },
           mode := .tuning,
           tuning := r.tuning.start r.settings,
           temp := { r.temp with lostTimer := some (r.temp.lastTaken.getD now + r.settings.lostLimit) } }

/-- The start check of a head (R13). -/
def State.startCheck (s : State) (h : Head) : State :=
  if s.canStart h then s.modHead h (·.start s.now) else s

/-- The start check of every head of a list. -/
def State.startChecks (s : State) (hs : List Head) : State := hs.foldl State.startCheck s

/-! ## End causes (R15, R16) -/

/-- The head states in which a cause is taken (the table of R15). -/
def takenIn (policy : MotionPolicy) (o : JointOutcome) (m : HeadMode) : Bool :=
  match o with
  | .cancelled => m.occupied
  | .expired => m = .armed
  | .recipeMissing => m = .armed
  | .noLock => m = .tuning || m = .stopping
  | .coupling => m = .tuning || m = .stopping
  | .tuneLimit => m = .heating || m = .stopping
  | .overtemp => m.started
  | .sensorLost => m.started
  | .overEnergy => m.started
  | .phaseTimeout => m = .heating || m = .stopping
  | .done => m = .heating
  | .lowEnergy => m = .heating
  | .clampLost => m.started
  | .coolant => m.started
  | .abortedMotion => m.started || (m = .armed && policy = .flush)
  | .stageFault => m.started
  | .abortedEstop => m.started

/-- ABORTED_ESTOP and STAGE_FAULT end the joint at once, whether or not a segment is in flight (R15, R16). -/
def JointOutcome.atOnce : JointOutcome → Bool
  | .abortedEstop => true
  | .stageFault => true
  | _ => false

/-! ## The end of a joint (R18, R19) -/

/-- What an outcome does to the consecutive-fault count (R19). -/
inductive FaultEffect where
  | rises | clears | keeps
deriving DecidableEq, Repr

/-- The table of R19. -/
def JointOutcome.faultEffect : JointOutcome → FaultEffect
  | .noLock => .rises
  | .coupling => .rises
  | .tuneLimit => .rises
  | .overtemp => .rises
  | .overEnergy => .rises
  | .phaseTimeout => .rises
  | .sensorLost => .rises
  | .done => .clears
  | .lowEnergy => .clears
  | .cancelled => .keeps
  | .expired => .keeps
  | .recipeMissing => .keeps
  | .clampLost => .keeps
  | .coolant => .keeps
  | .stageFault => .keeps
  | .abortedEstop => .keeps
  | .abortedMotion => .keeps

/-- The consecutive-fault count after an outcome (R19). -/
def faultCountAfter (count : Nat) (o : JointOutcome) : Nat :=
  match o.faultEffect with
  | .rises => min (count + 1) 8
  | .clears => 0
  | .keeps => count

/-- The outcome brought the count to the head's fault limit (R19): only an outcome that raises the count does. -/
def reachesLimit (count limit : Nat) (o : JointOutcome) : Bool :=
  o.faultEffect = .rises && decide (limit ≤ faultCountAfter count o)

/-- The result record of a joint that ends at `now` with the outcome (R168, R169). -/
def resultOf (now : Nat) (h : Head) (drift : Nat) (j : Joint) (o : JointOutcome) : ResultRec :=
  { jobTag := j.job.jobTag, indexTag := j.job.indexTag, head := h, recipe := j.job.recipe, outcome := o,
    energy := j.energy, peak := j.peak,
    runTime := match j.startTime with | some t => min (now - t) maxRunTime | none => 0,
    drift := drift, lock := j.lock, phaseList := j.closedList now }

/-- What the head holds once its joint has ended (steps 1, 4, 5 and 6 of R18; R138 and R141 for the tuner and the
temperature input). The current tap is kept. DESIGN CHOICE (log entry 36): after a failed probe has moved it to a
candidate not yet probed, that candidate is kept, though R138 also calls the tap kept the last tap tried. -/
def HeadRec.endJoint (r : HeadRec) (o : JointOutcome) : HeadRec :=
  { r with
    mode := if o = .coolant || reachesLimit r.faultCount r.settings.faultLimit o then .faulted else .idle,
    joint := none,
    faultCount := faultCountAfter r.faultCount o,
    tuning := { r.tuning with lockState := .none, skipTap := none },
    temp := { r.temp with lostTimer := none, tf := none, lastTaken := none },
    line := { r.line with graceTimer := none } }

/-- The head's waiting fetch, if any, is withdrawn (R11, R181). -/
def State.withdrawFetch (s : State) (h : Head) : State :=
  { s with store := { s.store with waiting := s.store.waiting.filter fun f => f.head ≠ h } }

/-- Steps 1 to 6 of R18: the joint ends with the outcome. The re-try of step 7 follows it. -/
def State.endCore (s : State) (h : Head) (o : JointOutcome) : State :=
  let r := s.head h
  match r.joint with
  | none => s
  | some j =>
    let s1 := s.placeResult (resultOf s.now h r.tuning.driftCount j o)
    let s2 := s1.trackerTake j.job.indexTag (·.endJoint o)
    let s3 := if reachesLimit r.faultCount r.settings.faultLimit o then s2.raise (.headFault h) else s2
    (s3.setHead h (r.endJoint o)).withdrawFetch h

/-! ## Recipe fetches (R11, R181, R182) -/

/-- The bank of an entry number (R177). -/
def bankOf (n : Nat) : Nat := n / 16

/-- The bank whose erase is in flight, running or suspended. -/
def StoreRec.erasing (t : StoreRec) : Option (Fin 4) :=
  match t.op with
  | some (.erase b) => some b
  | _ => none

/-- The entry lies in the bank whose erase is in flight. -/
def StoreRec.erases (t : StoreRec) (n : Nat) : Bool :=
  match t.erasing with
  | some b => b.val = bankOf n
  | none => false

/-- The recipe a served fetch is given: a VALID entry's record, outside a bank whose erase is in flight (R11, R181). -/
def StoreRec.fetched (t : StoreRec) (n : Nat) : Option Recipe :=
  if t.erases n then none
  else match t.entries[n]? with
    | some (.valid r) => some r
    | _ => none

/-- A served valid recipe is loaded and the start check made (R11, R13, R32). -/
def State.loadRecipe (s : State) (h : Head) (r : Recipe) : State :=
  (s.modJoint h (·.load r)).startCheck h

/-- A fetch is served (R181): a valid recipe is loaded, and otherwise the ARMED joint ends with RECIPE_MISSING, through
`finish` (R11). -/
def State.serveFetch (finish : Head → JointOutcome → State → State) (s : State) (f : Fetch) : State :=
  match s.store.fetched f.entry with
  | some r => s.loadRecipe f.head r
  | none => if (s.head f.head).mode = .armed then finish f.head .recipeMissing s else s

/-- A fetch waits at the tail of the list (R181). -/
def State.queueFetch (s : State) (f : Fetch) : State :=
  { s with store := { s.store with waiting := s.store.waiting ++ [f] } }

/-- The erase is suspended (R182): its timer stops, the remaining time is kept, and the suspend timer starts. -/
def State.suspendErase (s : State) : State :=
  { s with store := { s.store with mode := .eraseSuspended,
                                   remaining := s.store.opTimer.map (· - s.now),
                                   opTimer := none,
                                   suspendTimer := some (s.now + suspendTime) } }

/-- The store takes a fetch by its state (the table of R181). DESIGN CHOICE (log entry 37): the table alone decides in
ERASING, at the very moment the erase is due too; a fetch from another bank then suspends an erase with 0 ms left. -/
def State.takeFetch (finish : Head → JointOutcome → State → State) (s : State) (f : Fetch) : State :=
  match s.store.mode with
  | .ready => s.serveFetch finish f
  | .programming => s.queueFetch f
  | .erasing =>
    if s.store.erases f.entry then s.serveFetch finish f
    else if s.cell.eraseSuspend then s.suspendErase.queueFetch f
    else s.queueFetch f
  | .eraseSuspended =>
    if s.store.erases f.entry then s.serveFetch finish f else s.queueFetch f

/-! ## Activation (R8, R9, R10) -/

/-- The joint context of a job at its activation (R8, R10). DESIGN CHOICE (log entry 35): R10 and R32 give
no value to E_entry before phase 1 is entered, nor to the trimmed minimum, ceiling and thresholds, exit pending, T_entry
and the phase entry time before the recipe is loaded. The model holds 0, 0, 0, no thresholds, "no", absent and
absent. -/
def Joint.ofJob (now : Nat) (job : Job) : Joint where
  job := job
  recipe := none
  startSeen := job.startMode = .immediate
  armTimer := if job.armTimeout = 0 then none else some (now + 1000 * job.armTimeout)
  startTime := none
  cause := none
  phase := none
  phaseEntry := none
  energy := 0
  remainder := 0
  entryEnergy := 0
  peak := none
  phaseList := []
  lock := none
  minEnergy := 0
  ceiling := 0
  thresholds := []
  exitPending := false
  tEntry := none
  durationTimer := none
  limitTimer := none
  lastSetpoint := none
  decision := none

/-- The conditions of R8: the head is IDLE, its queue holds a job, and a result place is free. -/
def State.canActivate (s : State) (h : Head) : Bool :=
  (s.head h).mode = .idle && !(s.head h).queue.isEmpty &&
    decide (s.report.results.length + s.activeJoints < resultCapacity)

/-- What the head holds once its oldest job is activated (steps 1 to 5 of R8, and R141). -/
def HeadRec.activate (r : HeadRec) (now : Nat) (job : Job) (rest : List Job) : HeadRec :=
  { r with queue := rest, joint := some (Joint.ofJob now job), mode := .armed,
           tuning := { r.tuning with driftCount :=
             match r.settings.driftPolicy with | .perJob => 0 | .running => r.tuning.driftCount },
           temp := { r.temp with tf := none, lastTaken := none } }

/-- The head's oldest job is activated and its recipe fetched (R8). -/
def State.activate (finish : Head → JointOutcome → State → State) (s : State) (h : Head) : State :=
  match (s.head h).queue with
  | [] => s
  | job :: rest =>
    (s.modHead h fun r => r.activate s.now job rest).takeFetch finish { head := h, entry := job.recipe }

/-- A re-try of activation (R9), with a bound on the joints that may be activated inside it. A joint that ends at once
with RECIPE_MISSING makes its own re-try (R18, log entry 24). -/
def State.retryWithin : Nat → State → State
  | 0, s => s
  | n + 1, s =>
    s.eachHead State.canActivate fun h s =>
      s.activate (fun h o s => State.retryWithin n (s.endCore h o)) h

/-- Activation is re-tried (R9). Each activation takes a queued job, so the queued jobs bound the joints activated. -/
def State.retry (s : State) : State := State.retryWithin s.queuedJobs s

/-- The joint ends with the outcome: the seven steps of R18. -/
def State.endJoint (s : State) (h : Head) (o : JointOutcome) : State := (s.endCore h o).retry

/-- The joint ends with the cause it recorded (R16, R17). -/
def State.endRecorded (s : State) (h : Head) : State :=
  match (s.head h).joint with
  | some j =>
    match j.cause with
    | some o => s.endJoint h o
    | none => s
  | none => s

/-- The joint is told to end and waits for its segment's report: a cut order and STOPPING (R15). -/
def State.stopJoint (s : State) (h : Head) : State :=
  (s.cutSegment h).modHead h fun r => { r with mode := .stopping }

/-- An end cause is taken at the job manager (R15, R16). -/
def State.takeCause (s : State) (h : Head) (o : JointOutcome) : State :=
  if takenIn s.cell.motionPolicy o (s.head h).mode then
    if (s.head h).mode = .stopping then
      if o.atOnce then s.endRecorded h else s
    else
      let s' := s.modJoint h fun j => { j with cause := some o }
      if o.atOnce || !s.inFlight h then s'.endJoint h o else s'.stopJoint h
  else s

/-- The cause is taken where there is one. -/
def State.takeCause? (s : State) (h : Head) : Option JointOutcome → State
  | some o => s.takeCause h o
  | none => s

/-- The waiting fetches are served, oldest first, until none waits; `n` bounds their number (R180, R182, log
entry 25). DESIGN CHOICE (log entry 38): after a completion the store is READY, so a fetch that a re-try requests
meanwhile is served at once by the table of R181, ahead of the fetches that still wait. -/
def State.serveWaiting : Nat → State → State
  | 0, s => s
  | n + 1, s =>
    match s.store.waiting with
    | [] => s
    | f :: rest =>
      State.serveWaiting n
        (({ s with store := { s.store with waiting := rest } }).serveFetch (fun h o s => s.endJoint h o) f)

/-- Every waiting fetch is served (R180, R182). -/
def State.serveAll (s : State) : State := State.serveWaiting (s.store.waiting.length + s.queuedJobs) s

/-! ## Queues (R3, R5) -/

/-- Jobs that leave a queue without activation are taken by the tracker, one after the other (R23). -/
def State.leaveJobs (s : State) (jobs : List Job) : State :=
  jobs.foldl (fun s j => s.trackerTake j.indexTag IndexEntry.leave) s

/-- The head's queue is emptied, oldest job first (R5). -/
def State.flushHead (s : State) (h : Head) : State :=
  (s.modHead h fun r => { r with queue := [] }).leaveJobs (s.head h).queue

end Sys2Proof.Machine
end

