-- ==== Sys2Proof/Machine/Scheduler.lean ====
section
/-! DEFINITION. The slot scheduler (spec/04): wants power, the rotation arbiter, the slot decision with its windows and
its hand-over to the stage interface (R109, R110), deferral, the running frame, and the adoption of a pending frame. -/

namespace Sys2Proof.Machine

/-! ## Frames (R72, R73) -/

/-- The numbers of a frame's live slots, in list order (R73). -/
def liveSlots (f : List Slot) : List Nat :=
  ((List.range f.length).filter fun i => match f[i]? with | some x => x.length ≠ 0 | none => false).map (· + 1)

/-- The slot of a number (R72). -/
def slotAt (f : List Slot) (n : Nat) : Option Slot := if n = 0 then none else f[n - 1]?

/-- The live slot after slot `n` in list order; none at a frame boundary (R73). -/
def nextLive (f : List Slot) (n : Nat) : Option Nat := (liveSlots f).find? fun m => decide (n < m)

/-- The pass time (R73). -/
def passTime (f : List Slot) : Nat := (f.map Slot.length).sum

/-- The heads a slot names (R93, R96). -/
def SlotRule.heads : SlotRule → List Head
  | .passive => []
  | .fixed h _ => [h]
  | .prefer h g => [h, g]
  | .rotate => []
  | .chain h _ => [h]
  | .split h g _ => [h, g]

/-- The slot's rule by name (R192). -/
def SlotRule.name : SlotRule → RuleName
  | .passive => .passive
  | .fixed _ _ => .fixed
  | .prefer _ _ => .prefer
  | .rotate => .rotate
  | .chain _ _ => .chain
  | .split _ _ _ => .split

/-- A frame names the head in some slot, removed slots included (R96, R118). -/
def frameNames (f : Option (List Slot)) (h : Head) : Bool :=
  match f with
  | some slots => slots.any fun x => x.rule.heads.contains h
  | none => false

/-! ## Wants power (R75) -/

/-- The head's current phase is a RAMP or SOAK phase. -/
def HeadRec.inHeatPhase (r : HeadRec) : Bool :=
  match r.joint with
  | some j => match j.currentPhase with
    | some p => p.isHeat
    | none => false
  | none => false

/-- The head wants power (R75). -/
def State.wantsPower (s : State) (h : Head) : Bool :=
  let r := s.head h
  (r.mode = .tuning || (r.mode = .heating && r.inHeatPhase)) && r.line.clamp.permits && r.line.flow.permits &&
    s.cell.mode = .run

/-! ## Choosing the recipient (R77 to R83) -/

/-- What a slot's rule chose: the recipient, the rule that chose (the slot's or its fallback), and whether the order is a
CHAIN continuation. -/
structure Choice where
  recipient : Option Head
  rule : RuleName
  continuation : Bool
deriving DecidableEq, Repr

/-- The order in which the arbiter looks at the heads: ascending after the pointer, the head in the pointer last
(R79). -/
def rotationOrder : Option Head → List Head
  | none => Head.all
  | some p => Head.all.drop (p.num + 1) ++ Head.all.take (p.num + 1)

/-- The arbiter's pick among the stage's members that want power (R79). -/
def State.pick (s : State) (g : Stage) : Option Head :=
  (rotationOrder (s.stage g).pointer).find? fun h => s.stageOf h = g && s.wantsPower h

/-- The head, if it wants power. -/
def State.ifWants (s : State) (h : Head) : Option Head := if s.wantsPower h then some h else none

/-- The choice of the rotation arbiter, as rule ROTATE (R79). -/
def State.rotateChoice (s : State) (g : Stage) : Choice :=
  { recipient := s.pick g, rule := .rotate, continuation := false }

/-- The choice of a fallback (R77). -/
def State.fallbackChoice (s : State) (g : Stage) : Fallback → Choice
  | .passive => { recipient := none, rule := .passive, continuation := false }
  | .rotate => s.rotateChoice g

/-- The continuation conditions of a CHAIN slot that starts at `start` (R81). -/
def State.continues (s : State) (g : Stage) (h : Head) (start : Nat) : Bool :=
  (s.stage g).lastServed = some (h, start) && s.wantsPower h

/-- The recipient of the slot part by the slot's rule (R77, R78, R79, R81, R82). -/
def State.choose (s : State) (g : Stage) (run : Running) : SlotRule → Choice
  | .passive => { recipient := none, rule := .passive, continuation := false }
  | .fixed h fb =>
    if s.wantsPower h then { recipient := some h, rule := .fixed, continuation := false } else s.fallbackChoice g fb
  | .prefer h k =>
    { recipient := (s.ifWants h).or (s.ifWants k), rule := .prefer, continuation := false }
  | .rotate => s.rotateChoice g
  | .chain h fb =>
    if s.continues g h run.slotStart then { recipient := some h, rule := .chain, continuation := true }
    else s.fallbackChoice g fb
  | .split h k _ =>
    { recipient := s.ifWants (if run.part = .second then k else h), rule := .split, continuation := false }

/-- The rotation pointer after a choice: the head picked by the arbiter, else as it was (R79, R80). -/
def pointerAfter (pointer : Option Head) (c : Choice) : Option Head :=
  match c.rule, c.recipient with
  | .rotate, some h => some h
  | _, _ => pointer

/-! ## Windows and segments (R84 to R89) -/

/-- The switchover gap applies (R84). -/
def gapApplies (matrix : Option Head) (h : Head) (continuation : Bool) : Bool :=
  !continuation && !(matrix = some h)

/-- The lead of a segment: the gap where it applies (R84, R109). -/
def leadOf (gap : Nat) (applies : Bool) : Nat := if applies then gap else 0

/-- The window (R85). -/
def windowOf (partEnd now lead : Nat) : Int := (partEnd : Int) - now - lead

/-- The last-served record after an order that ends at `orderEnd` in a slot that ends at `slotEnd` (R81). -/
def lastServedAfter (h : Head) (orderEnd slotEnd : Nat) : Option (Head × Nat) :=
  if orderEnd = slotEnd then some (h, slotEnd) else none

/-- The hand-over of a segment to the stage interface (R89, R109, R110). -/
def State.handOver (s : State) (g : Stage) (seg : Segment) (slotEnd : Nat) : State :=
  (s.send g (.heat seg.head seg.tap seg.power seg.lead seg.duration seg.continuation)).modStage g fun r =>
    { r with segment := some seg,
             completionTimer := some (seg.handover + seg.lead + seg.duration + completionMargin),
             matrix := some seg.head,
             lastServed := lastServedAfter seg.head (seg.handover + seg.lead + seg.duration) slotEnd }

/-- The decision's outcome where the recipient holds the slot but no segment is sent (R88). -/
def unsentOutcome (power : Nat) : DecisionOutcome := if power = 0 then .zeroPower else .windowShort

/-- The last slot decision record becomes `d` (R99). -/
def State.recordDecision (s : State) (g : Stage) (d : SlotDecision) : State :=
  s.modStage g fun r => { r with lastDecision := some d }

/-- The segment the decision orders for head `h` (R86, R87, R109). -/
def State.segmentFor (s : State) (h : Head) (power lead duration : Nat) (continuation : Bool) : Segment :=
  { head := h, tap := (s.head h).tuning.currentTap, power := power, lead := lead, duration := duration,
    continuation := continuation, handover := s.now, cut := false }

/-- What a heat decision for the head reads (R49). -/
def State.heatInputs (s : State) (g : Stage) (h : Head) : HeatInputs :=
  let r := s.head h
  { now := s.now, tf := r.temp.tf, lastTaken := r.temp.lastTaken, staleLimit := r.settings.staleLimit,
    stalePolicy := r.settings.stalePolicy, headLimit := r.settings.powerLimit, stageLimit := (s.stage g).powerLimit }

/-- The heat decision of the head at this moment (R49). -/
def State.heatDecision (s : State) (g : Stage) (h : Head) : Option DecisionRecord :=
  match (s.head h).joint with
  | some j => match j.currentPhase with
    | some p => j.heatDecision (s.heatInputs g h) p
    | none => none
  | none => none

/-- The joint's decision record and last heat setpoint once its segment has been handed over, or withheld
(R62, R63). -/
def Joint.afterDecision (j : Joint) (d : DecisionRecord) (sent : Bool) : Joint :=
  { j with decision := some { d with orderSent := sent },
           lastSetpoint := if sent then some d.setpoint else j.lastSetpoint }

/-- A probe or heat segment of `power` for at most `longest` ms is handed over, or none is sent; the slot decision
record says which (R86 to R89, R99). -/
def State.feed (s : State) (g : Stage) (run : Running) (c : Choice) (h : Head) (power : Nat) (longest : Option Nat)
    (sentAs : DecisionOutcome) : State :=
  let applies := gapApplies (s.stage g).matrix h c.continuation
  let lead := leadOf (s.stage g).gap applies
  let window := windowOf run.partEnd s.now lead
  let base : SlotDecision :=
    { slot := run.slot, part := run.part, wait := s.now - run.partStart, rule := c.rule, recipient := some h,
      outcome := unsentOutcome power, sent := none }
  if window ≤ 0 || power = 0 then s.recordDecision g base
  else
    let duration := match longest with | some d => min d window.toNat | none => window.toNat
    let seg := s.segmentFor h power lead duration c.continuation
    (s.handOver g seg run.slotTimer).recordDecision g
      { base with outcome := sentAs, sent := some (SentRec.mk applies window.toNat duration power c.continuation) }

/-- The window the decision leaves for a segment to `h` is above 0 ms (R85, R88). -/
def State.windowOpen (s : State) (g : Stage) (run : Running) (c : Choice) (h : Head) : Bool :=
  decide (0 < windowOf run.partEnd s.now
    (leadOf (s.stage g).gap (gapApplies (s.stage g).matrix h c.continuation)))

/-- The slot decision for a part with a recipient (steps 2 to 6 of R76). -/
def State.decideFor (s : State) (g : Stage) (run : Running) (c : Choice) (h : Head) : State :=
  let r := s.head h
  if r.mode = .tuning then
    s.feed g run c h (probeSegmentPower r.settings.probePower r.settings.powerLimit (s.stage g).powerLimit)
      (some r.settings.settleStep) .probeSent
  else
    match s.heatDecision g h with
    | some d =>
      let sent := s.windowOpen g run c h && !(d.setpoint = 0)
      (s.feed g run c h d.setpoint none .heatSent).modJoint h (·.afterDecision d sent)
    | none => s

/-- The outcome recorded where no head receives the part (R99). -/
def idleOutcome (c : Choice) : DecisionOutcome := if c.rule = .passive then .passiveRule else .noneWanting

/-- The slot decision for the part now running (R76). -/
def State.decideSlot (s : State) (g : Stage) : State :=
  match (s.stage g).running, (s.stage g).active with
  | some run, some frame =>
    match slotAt frame run.slot with
    | some slot =>
      let c := s.choose g run slot.rule
      let s' := s.modStage g fun r => { r with pointer := pointerAfter r.pointer c }
      match c.recipient with
      | some h => s'.decideFor g run c h
      | none => s'.recordDecision g
          { slot := run.slot, part := run.part, wait := s.now - run.partStart, rule := c.rule, recipient := none,
            outcome := idleOutcome c, sent := none }
    | none => s
  | _, _ => s

/-- The decision is made, or deferred while a segment is in flight (R90). -/
def State.decideOrDefer (s : State) (g : Stage) : State :=
  if (s.stage g).segment.isSome then s.modStage g fun r => { r with deferred := true } else s.decideSlot g

/-- A deferred decision is made at the report that ended the segment (R91). -/
def State.decideDeferred (s : State) (g : Stage) : State :=
  if (s.stage g).deferred then (s.modStage g fun r => { r with deferred := false }).decideSlot g else s

/-! ## The running frame (R73, R74, R90, R92, R95) -/

/-- A decision still deferred is dropped by the next slot start or split point, and recorded OVERTAKEN (R92, log
entry 20). -/
def State.dropOvertaken (s : State) (g : Stage) : State :=
  match (s.stage g).deferred, (s.stage g).running with
  | true, some run =>
    s.modStage g fun r =>
      { r with deferred := false,
               lastDecision := some
                 { slot := run.slot, part := run.part, wait := s.now - run.partStart,
                   rule := match r.active with
                     | some f => match slotAt f run.slot with
                       | some x => x.rule.name
                       | none => .passive
                     | none => .passive,
                   recipient := none, outcome := .overtaken, sent := none } }
  | _, _ => s

/-- The running state of a slot that starts at `t` (R74, R82). -/
def runningOf (n : Nat) (slot : Slot) (t : Nat) : Running :=
  match slot.rule with
  | .split _ _ m =>
    { slot := n, part := .first, slotStart := t, partStart := t, partEnd := t + m, slotTimer := t + slot.length,
      splitTimer := some (t + m) }
  | _ =>
    { slot := n, part := .whole, slotStart := t, partStart := t, partEnd := t + slot.length,
      slotTimer := t + slot.length, splitTimer := none }

/-- Slot `n` of the active frame starts at `t`, and its decision is made or deferred (R76, R90). -/
def State.startSlot (s : State) (g : Stage) (n t : Nat) : State :=
  match (s.stage g).active with
  | some frame =>
    match slotAt frame n with
    | some slot => (s.modStage g fun r => { r with running := some (runningOf n slot t) }).decideOrDefer g
    | none => s
  | none => s

/-- The active frame's first live slot starts at `t` (R74, R95). -/
def State.startFrame (s : State) (g : Stage) (t : Nat) : State :=
  match (s.stage g).active with
  | some frame =>
    match nextLive frame 0 with
    | some n => s.startSlot g n t
    | none => s
  | none => s

/-- The pending frame, if any, becomes the active frame, and FRAME_ADOPTED is raised (R95). -/
def State.adoptPending (s : State) (g : Stage) : State :=
  match (s.stage g).pendingFrame with
  | some f => (s.modStage g fun r => { r with active := some f, pendingFrame := none }).raise (.frameAdopted g)
  | none => s

/-- The stage leaves READY: the frame stops, a deferred decision is dropped, and a pending frame is adopted
(R74, R95). -/
def State.stopFrame (s : State) (g : Stage) : State :=
  (s.modStage g fun r => { r with running := none, deferred := false }).adoptPending g

/-- The slot that follows the slot now running starts at `t`; at a frame boundary a pending frame is adopted first
(R73, R95). -/
def State.nextSlot (s : State) (g : Stage) (run : Running) (t : Nat) : State :=
  match (s.stage g).active with
  | some frame =>
    match nextLive frame run.slot with
    | some n => s.startSlot g n t
    | none => (s.adoptPending g).startFrame g t
  | none => s

/-- The slot timer expires: the next live slot starts (R73, R74, R92). -/
def State.slotExpiry (s : State) (g : Stage) (run : Running) : State :=
  (s.dropOvertaken g).nextSlot g run run.slotTimer

/-- The split timer expires at `t`: the second part starts (R82, R92). -/
def State.splitExpiry (s : State) (g : Stage) (run : Running) (t : Nat) : State :=
  ((s.dropOvertaken g).modStage g fun r =>
    { r with running := some { run with part := .second, partStart := t, partEnd := run.slotTimer,
                                        splitTimer := none } }).decideOrDefer g

end Sys2Proof.Machine
end

