-- ==== Sys2Proof/Machine/Stages.lean ====
section
/-! DEFINITION. The stage interface (spec/05): the entries of a stage to READY, FAULT and OFF, which the commands of
the stage families share. -/

namespace Sys2Proof.Machine

/-- The scheduler's part of a stage's entry to READY: pointer, last-served record and last decision cleared, and the
active frame started (R74, R80, R99). -/
def State.startReadyFrame (s : State) (g : Stage) : State := s.startFrame g s.now

/-- The job manager makes the start check of every ARMED member (R105, R120). -/
def State.checkMembers (s : State) (g : Stage) : State := s.startChecks (s.members g)

/-- A stage enters READY (R105). The first slot decision and the start checks fall at one moment, in either order:
`checksFirst` says which (log entry 7). -/
def State.enterReady (s : State) (g : Stage) (checksFirst : Bool) : State :=
  let s1 := (s.modStage g fun r =>
    { r with mode := .ready, settleTimer := none, matrix := none, pointer := none, lastServed := none,
             lastDecision := none }).raise (.stageReady g)
  if checksFirst then (s1.checkMembers g).startReadyFrame g else (s1.startReadyFrame g).checkMembers g

/-- STAGE_FAULT at the job manager for every member with a started joint, in ascending head number (step 6 of
R106). -/
def State.faultMembers (s : State) (g : Stage) : State :=
  s.eachHead (fun s h => s.stageOf h = g && (s.head h).mode.started) fun h s => s.takeCause h .stageFault

/-- Steps 1 to 4 of R106: the cause is recorded, the segment dropped, the timers stopped and the bus ordered off; the
stage is in FAULT. -/
def State.faultStage (s : State) (g : Stage) (cause : FaultCause) (code : Nat) : State :=
  (s.modStage g fun r =>
    { r with mode := .fault, settleTimer := none, segment := none, completionTimer := none,
             fault := some { cause := cause, tripCode := code, time := s.now, cleared := false } }).send g .busOff

/-- The stage leaves READY, if it was READY: its frame stops (R74). -/
def State.stopIfReady (s : State) (g : Stage) (before : StageMode) : State :=
  if before = .ready then s.stopFrame g else s

/-- A stage enters FAULT: the seven steps of R106, its events in their order (log entry 34). -/
def State.enterFault (s : State) (g : Stage) (cause : FaultCause) (code : Nat) : State :=
  ((((s.faultStage g cause code).stopIfReady g (s.stage g).mode).faultMembers g).raise (.stageFault g cause))

/-- A SETTLING or READY stage enters OFF: segment dropped, timers stopped, bus ordered off, frame stopped
(R103, R108). -/
def State.turnOff (s : State) (g : Stage) : State :=
  ((s.modStage g fun r =>
    { r with mode := .off, settleTimer := none, segment := none, completionTimer := none }).send g .busOff).stopIfReady
      g (s.stage g).mode

/-- ESTOP at the stage interface (R108). -/
def State.estopStage (s : State) (g : Stage) : State :=
  match (s.stage g).mode with
  | .settling => s.turnOff g
  | .ready => s.turnOff g
  | .off => s
  | .fault => s

end Sys2Proof.Machine
end

