-- ==== Sys2Proof/Machine/Tuner.lean ====
section
/-! DEFINITION. The coupling tuner (spec/06) and the work of one segment report (R41, R111), where the tuner, the heat
law unit and the job manager act on the same report. -/

namespace Sys2Proof.Machine

/-- The angle limited to −90 to +90 degrees (R124). -/
def limitAngle (a : Int) : Int := if a < -90 then -90 else if 90 < a then 90 else a

/-- The angle lies inside the window; an angle equal to it does (R124). -/
def angleInside (a : Int) (window : Nat) : Bool := decide ((limitAngle a).natAbs ≤ window)

/-- The next tap of the search after a failed probe at tap `t` (R125). -/
def searchCandidate (t floor : Nat) (skip : Option Nat) : Nat :=
  let c := if skip = some t then floor else t + 1
  match skip with
  | some k => if c = k then k + 1 else c
  | none => c

/-- The new load has shifted from the last locked load (R127). -/
def loadShifted (new previous limit : Nat) : Bool :=
  decide (limit * previous < ((new : Int) - (previous : Int)).natAbs * 100)

/-- What the tuner reports to the job manager on a segment report. -/
inductive TunerReply where
  | nothing
  | lock
  | cause (o : JointOutcome)
deriving DecidableEq, Repr

/-- What the tuner did on a segment report: the state, its report to the job manager, and its event, if any. -/
structure TunerWork where
  state : State
  reply : TunerReply
  event : Option Event

/-- The search after a failed probe (R125). -/
def State.searchStep (s : State) (h : Head) : TunerWork :=
  let r := s.head h
  let c := searchCandidate r.tuning.currentTap r.settings.floor r.tuning.skipTap
  if c ≤ r.settings.ceiling then
    { state := s.modHead h fun r => { r with tuning := { r.tuning with currentTap := c } }, reply := .nothing,
      event := none }
  else
    { state := s.modHead h fun r => { r with tuning := { r.tuning with ceilingReached := true } },
      reply := .cause .noLock, event := none }

/-- The load lies inside the coupling window of the joint's copied recipe (R128). -/
def Joint.loadInside (j : Joint) (load : Nat) : Bool :=
  match j.recipe with
  | some r => decide (r.rMin ≤ load) && decide (load ≤ r.rMax)
  | none => false

/-- A lock at the current tap with the load reported (R127, R128). -/
def State.lockTap (s : State) (h : Head) (load : Nat) : TunerWork :=
  let r := s.head h
  let l : LockRecord := { tap := r.tuning.currentTap, load := load }
  let inside := match r.joint with | some j => j.loadInside load | none => false
  { state := s.modHead h fun r =>
      { r with joint := r.joint.map fun j => { j with lock := some l },
               tuning := { r.tuning with lockState := .locked,
                                         lastLock := if inside then some l else r.tuning.lastLock } },
    reply := if inside then .lock else .cause .coupling,
    event := match r.tuning.lastLock with
      | some p => if loadShifted load p.load r.settings.loadShiftLimit then some (.loadShift h load) else none
      | none => none }

/-- The tap one step up for a positive angle and one down for a negative one, where it stays within floor and ceiling
(R130). -/
def retuneTap (tap floor ceiling : Nat) (a : Int) : Option Nat :=
  if 0 < a then (if tap + 1 ≤ ceiling && floor ≤ tap + 1 then some (tap + 1) else none)
  else (if floor < tap && tap - 1 ≤ ceiling then some (tap - 1) else none)

/-- A retune that a heat report calls for (R130, R131, R134). -/
def State.retune (s : State) (h : Head) (a : Int) : TunerWork :=
  let r := s.head h
  let count := min (r.tuning.driftCount + 1) maxByte
  let moved := retuneTap r.tuning.currentTap r.settings.floor r.settings.ceiling a
  let tap := moved.getD r.tuning.currentTap
  { state := s.modHead h fun r =>
      { r with tuning := { r.tuning with driftCount := count, lockHeld := false, currentTap := tap } },
    reply := if moved.isSome then .nothing else .cause .tuneLimit,
    event := if !(r.settings.driftLimit = 0) && count = r.settings.driftLimit &&
                r.tuning.driftCount + 1 = r.settings.driftLimit
             then some (.coilDrift h tap) else none }

/-- The tuner takes a report for a joint in TUNING (R124) or HEATING (R130); in any other head state nothing
(R126). -/
def State.tunerTakes (s : State) (h : Head) (rep : SegReport) : TunerWork :=
  let window := (s.head h).settings.angleWindow
  match (s.head h).mode with
  | .tuning =>
    if !(rep.onTime = 0) && angleInside rep.angle window then s.lockTap h rep.load else s.searchStep h
  | .heating =>
    if rep.onTime = 0 || angleInside rep.angle window then { state := s, reply := .nothing, event := none }
    else s.retune h rep.angle
  | _ => { state := s, reply := .nothing, event := none }

/-- The head enters HEATING and phase 1 (R34, R128). The outcome is the one raised where every phase exits at its
entry. -/
def State.enterHeating (s : State) (h : Head) : State × Option JointOutcome :=
  match (s.head h).joint with
  | some j =>
    let e := j.enterFirst s.now (s.head h).temp.tf
    (s.modHead h fun r => { r with mode := .heating, joint := some e.1 }, e.2)
  | none => (s, none)

/-- Step 1 of R41: the report's energy is counted into the joint (R66 to R68). -/
def State.countReport (s : State) (h : Head) (rep : SegReport) (ordered : Nat) : State :=
  s.modJoint h (·.count (segmentEnergy rep.power rep.onTime ordered))

/-- The energy ceiling guard is met for the head's joint (R43). -/
def State.overCeiling (s : State) (h : Head) : Bool :=
  match (s.head h).joint with
  | some j => j.overCeiling
  | none => false

/-- Steps 2 to 4 of R41, with the cause raised. Steps 3 and 4 are made where the report found the joint in HEATING. -/
def State.heatChecks (s : State) (h : Head) (heating : Bool) : State × Option JointOutcome :=
  if s.overCeiling h then (s, some .overEnergy)
  else if heating then
    match (s.head h).joint with
    | some j =>
      let e := j.reportExits s.now (s.head h).temp.tf
      (s.modHead h fun r => { r with joint := some e.1 }, e.2)
    | none => (s, none)
  else (s, none)

/-- The event of the tuner, if any, is raised. -/
def State.raise? (s : State) : Option Event → State
  | some e => s.raise e
  | none => s

/-- The tuner's report is taken by the job manager once nothing else of the report ends the joint. -/
def State.takeTuner (s : State) (h : Head) : TunerReply → State
  | .nothing => s
  | .lock => (s.enterHeating h).1.takeCause? h (s.enterHeating h).2
  | .cause o => s.takeCause h o

/-- The tuner's report is taken first, and the heat law unit's checks follow (R34, R132). A lock whose report meets the
energy ceiling ends OVER_ENERGY (R34, log entry 10). -/
def State.tunerThenHeat (s : State) (h : Head) (heating : Bool) : TunerReply → State
  | .nothing => (s.heatChecks h heating).1.takeCause? h (s.heatChecks h heating).2
  | .lock =>
    if s.overCeiling h then (s.enterHeating h).1.takeCause h .overEnergy
    else (s.enterHeating h).1.takeCause? h (s.enterHeating h).2
  | .cause o => s.takeCause h o

/-- A search that passes the ceiling sets the ceiling-reached flag whichever cause is taken (R125, log entry 11). -/
def State.flagPassedCeiling (s : State) (h : Head) (w : TunerWork) : State :=
  if w.reply = .cause .noLock then
    s.modHead h fun r => { r with tuning := { r.tuning with ceilingReached := true } }
  else s

/-- The work of the tuner and of the heat law unit's checks on a report already counted, for a joint in TUNING or
HEATING (R34, R41, R111, R125, R128, R132). `order` is the order in which the job manager meets the two, and
`eventFirst` says whether the tuner's event precedes the events of a joint's end (log entries 6, 9). -/
def State.reportWork (s : State) (h : Head) (rep : SegReport) (order : ReportOrder) (eventFirst : Bool) : State :=
  let heating : Bool := (s.head h).mode = .heating
  let w := s.tunerTakes h rep
  let early := if eventFirst then w.event else none
  let late := if eventFirst then none else w.event
  match order with
  | .tunerCauseFirst => ((w.state.raise? early).tunerThenHeat h heating w.reply).raise? late
  | .tunerActsFirst =>
    let x := (w.state.raise? early).heatChecks h heating
    match x.2 with
    | some o => (x.1.takeCause h o).raise? late
    | none => (x.1.takeTuner h w.reply).raise? late
  | .heatFirst =>
    let x := s.heatChecks h heating
    match x.2 with
    | some o => (x.1.takeCause h o).flagPassedCeiling h w
    | none =>
      let w' := x.1.tunerTakes h rep
      ((w'.state.raise? early).takeTuner h w'.reply).raise? late

/-- A report is handed to the heat law unit, the coupling tuner and the job manager (step 2 of R111; R17 for a STOPPING
joint, R69). -/
def State.handReport (s : State) (h : Head) (rep : SegReport) (ordered : Nat) (order : ReportOrder)
    (eventFirst : Bool) : State :=
  match (s.head h).mode with
  | .tuning => (s.countReport h rep ordered).reportWork h rep order eventFirst
  | .heating => (s.countReport h rep ordered).reportWork h rep order eventFirst
  | .stopping => (s.countReport h rep ordered).endRecorded h
  | _ => s

/-- A segment report for the segment in flight (R111, R112). After the report no segment is in flight for the joint
(R43, R125, R131), so the causes it raises end the joint at once. -/
def State.segmentReported (s : State) (g : Stage) (rep : SegReport) (order : ReportOrder) (eventFirst : Bool) : State :=
  match (s.stage g).segment with
  | none => s
  | some seg =>
    let s1 := (s.dropSegment g).handReport seg.head rep seg.duration order eventFirst
    if rep.trip then s1.enterFault g .trip 0 else s1.decideDeferred g

end Sys2Proof.Machine
end

