-- ==== Sys2Proof/Machine/JobRequests.lean ====
section
/-! DEFINITION. The job manager's requests (spec/01): SUBMIT_JOB, CANCEL_JOB, FLUSH_QUEUE, START_HEADS and CLEAR_FAULT
for a head, and the commands of the table that carry them. -/

namespace Sys2Proof.Machine

/-- The head a request names; a number above 7 is refused with BAD_HEAD (R2, R190). -/
def withHead (n : Nat) (owner : Head → State → State × Answer) (s : State) : State × Answer :=
  match Head.ofNum? n with
  | some h => owner h s
  | none => (s, .refuse .badHead)

/-- The stage a request names; a number above 1 is refused with BAD_FIELD (R101, R190). -/
def withStage (n : Nat) (owner : Stage → State → State × Answer) (s : State) : State × Answer :=
  match Stage.ofNum? n with
  | some g => owner g s
  | none => (s, .refuse .badField)

/-! ## SUBMIT_JOB (R2) -/

/-- The trim taken: an absent trim is 100 %, and one out of range is clamped (R1, R2). -/
def trimTaken (trim : Nat) : Nat := if trim = 0 then 100 else max 50 (min trim 150)

/-- The trim was clamped (R2). -/
def trimClamped (trim : Nat) : Bool := !(trim = 0) && !(trimTaken trim = trim)

/-- The job of a record whose fields pass the checks of R2. -/
def jobOf? (raw : RawJob) : Option Job :=
  match StartMode.ofCode? raw.startMode, flagOfCode? raw.lastOfIndex with
  | some mode, some last =>
    if raw.jobTag = 0 || 63 < raw.recipe || 600 < raw.armTimeout then none
    else some { jobTag := raw.jobTag, indexTag := raw.indexTag, lastOfIndex := last, recipe := raw.recipe,
                startMode := mode, armTimeout := raw.armTimeout, trim := trimTaken raw.trim }
  | _, _ => none

/-- The job tag is held by a queued job or by the active joint of the head (R2). -/
def HeadRec.holdsTag (r : HeadRec) (tag : Nat) : Bool :=
  r.queue.any (fun j => j.jobTag = tag) ||
    match r.joint with
    | some j => j.job.jobTag = tag
    | none => false

/-- The state checks of SUBMIT_JOB, in their order (R2). -/
def State.submitCheck (s : State) (h : Head) (job : Job) : Option Reason :=
  if (s.head h).mode = .disabled then some .headDisabled
  else if (s.head h).holdsTag job.jobTag then some .duplicateTag
  else if queueCapacity ≤ (s.head h).queue.length then some .queueFull
  else match trackerFind s.tracker job.indexTag with
    | some e => if e.closed then some .indexClosed else none
    | none => if trackerCapacity ≤ s.tracker.length then some .indexFull else none

/-- An accepted job joins the queue and the tracker (R2, R22). -/
def State.acceptJob (s : State) (h : Head) (job : Job) : State :=
  let s1 := s.modHead h fun r => { r with queue := r.queue ++ [job] }
  { s1 with tracker := trackerSubmit s1.tracker job.indexTag job.lastOfIndex }

/-- SUBMIT_JOB (R2). -/
def reqSubmitJob (head : Nat) (raw : RawJob) (s : State) : State × Answer :=
  withHead head (fun h s =>
    match jobOf? raw with
    | none => (s, .refuse .badField)
    | some job =>
      match s.submitCheck h job with
      | some reason => (s, .refuse reason)
      | none => ((s.acceptJob h job).retry, .accept (trimClamped raw.trim) (byteField job.trim))) s

/-! ## CANCEL_JOB and FLUSH_QUEUE (R4, R5) -/

/-- A queued job with the tag is removed and taken by the tracker (R4, R23). -/
def State.cancelQueued (s : State) (h : Head) (job : Job) : State :=
  (s.modHead h fun r => { r with queue := r.queue.eraseP fun j => j.jobTag = job.jobTag }).leaveJobs [job]

/-- CANCEL_JOB (R4). -/
def reqCancelJob (head tag : Nat) (s : State) : State × Answer :=
  withHead head (fun h s =>
    if tag = 0 then (s, .refuse .badField)
    else match (s.head h).queue.find? (fun j => j.jobTag = tag) with
      | some job => (s.cancelQueued h job, .accept false (byteField 0x01))
      | none =>
        match (s.head h).joint with
        | some j =>
          if j.job.jobTag = tag then (s.takeCause h .cancelled, .accept false (byteField 0x02))
          else (s, .refuse .notFound)
        | none => (s, .refuse .notFound)) s

/-- FLUSH_QUEUE (R5). -/
def reqFlushQueue (head : Nat) (s : State) : State × Answer :=
  withHead head (fun h s => (s.flushHead h, .accept false (byteField (s.head h).queue.length))) s

/-! ## START_HEADS (R12) -/

/-- The head set names the head: Hn is counted as 2^n (R191). -/
def headInSet (set : Byte) (h : Head) : Bool := set.getLsbD h.num

/-- START_HEADS would set start seen for the head (R12). -/
def State.startable (s : State) (h : Head) : Bool :=
  match (s.head h).joint with
  | some j => (s.head h).mode = .armed && j.job.startMode = .onStart && !j.startSeen
  | none => false

/-- Start seen becomes "yes", and the start check is made (R12). -/
def State.seeStart (s : State) (h : Head) : State :=
  (s.modJoint h fun j => { j with startSeen := true }).startCheck h

/-- A head set as its byte (R191). -/
def headSetByte (hs : List Head) : Nat := (hs.map fun h => 2 ^ h.num).sum

/-- START_HEADS (R12). -/
def reqStartHeads (set : Byte) (s : State) : State × Answer :=
  let hs := Head.all.filter fun h => headInSet set h && s.startable h
  (hs.foldl State.seeStart s, .accept false (byteField (headSetByte hs)))

/-! ## CLEAR_FAULT for a head (R20) -/

/-- The fault count and, under RUNNING, the drift count are cleared, and a FAULTED head enters IDLE (R20, R133). -/
def HeadRec.clearFault (r : HeadRec) : HeadRec :=
  { r with faultCount := 0,
           tuning := { r.tuning with driftCount :=
             match r.settings.driftPolicy with | .running => 0 | .perJob => r.tuning.driftCount },
           mode := if r.mode = .faulted then .idle else r.mode }

/-- CLEAR_FAULT naming a head (R20). -/
def reqClearFaultHead (head : Nat) (s : State) : State × Answer :=
  withHead head (fun h s =>
    match (s.head h).mode with
    | .disabled => (s, .refuse .headDisabled)
    | .faulted => ((s.modHead h HeadRec.clearFault).retry, .accept false [])
    | _ => (s.modHead h HeadRec.clearFault, .accept false [])) s

/-! ## The commands -/

/-- SUBMIT_JOB. -/
def execSubmitJob (time : Nat) (tag : Byte) (head : Nat) (job : RawJob) (s : State) :
    Host.Outcome State Fault Refusal :=
  atTime time s (respond .submitJob tag false (reqSubmitJob head job))

/-- CANCEL_JOB. -/
def execCancelJob (time : Nat) (tag : Byte) (head jobTag : Nat) (s : State) : Host.Outcome State Fault Refusal :=
  atTime time s (respond .cancelJob tag false (reqCancelJob head jobTag))

/-- FLUSH_QUEUE. -/
def execFlushQueue (time : Nat) (tag : Byte) (head : Nat) (s : State) : Host.Outcome State Fault Refusal :=
  atTime time s (respond .flushQueue tag false (reqFlushQueue head))

/-- START_HEADS. -/
def execStartHeads (time : Nat) (tag : Byte) (heads : Byte) (s : State) : Host.Outcome State Fault Refusal :=
  atTime time s (respond .startHeads tag false (reqStartHeads heads))

/-- CLEAR_FAULT with target head. -/
def execClearFaultHead (time : Nat) (tag : Byte) (head : Nat) (s : State) : Host.Outcome State Fault Refusal :=
  atTime time s (respond .clearFault tag false (reqClearFaultHead head))

/-- ARM_TIMER_EXPIRY (R14): the ARMED joint ends with EXPIRED. -/
def execArmTimerExpiry (h : Head) (s : State) : Host.Outcome State Fault Refusal :=
  atExpiry ((s.head h).joint.bind Joint.armTimer) s fun s =>
    (s.modJoint h fun j => { j with armTimer := none }).takeCause h .expired

end Sys2Proof.Machine
end

