-- ==== Sys2Proof/Machine/Settings.lean ====
section
/-! DEFINITION. The settings requests (R191): SET_CELL (R165), SET_STAGE (R117) and SET_HEAD (R7, R64, R118, R122, R149,
R166). -/

namespace Sys2Proof.Machine

/-- The value a request carries for an item code. -/
def itemValue (items : List Item) (code : Nat) : Option Nat := (items.find? fun i => i.code = code).map Item.value

/-- No item is named twice (R191). -/
def itemsDistinct : List Item → Bool
  | [] => true
  | i :: rest => rest.all (fun x => !(x.code = i.code)) && itemsDistinct rest

/-- A value brought to the nearer end of its range. -/
def clampRange (low high v : Nat) : Nat := max low (min v high)

/-- Rounded down to a multiple of 10. -/
def downTo10 (v : Nat) : Nat := v / 10 * 10

/-- Every item with the value that is taken for it (R190, R191). -/
def takenItems (taken : Nat → Nat → Nat) (items : List Item) : List Item :=
  items.map fun i => { i with value := taken i.code i.value }

/-- Some item was clamped or rounded. -/
def itemsClamped (taken : Nat → Nat → Nat) (items : List Item) : Bool :=
  items.any fun i => !(taken i.code i.value = i.value)

/-- A settings reply: each setting as the two-byte value of its item (R193). -/
def settingsBytes (values : List Nat) : List Byte := values.flatMap (numField 2)

/-! ## SET_CELL (R165) -/

/-- The item of SET_CELL is known and its value one of its choices (R165, R191). -/
def cellItemOk (i : Item) : Bool :=
  match i.code with
  | 0x01 => (MotionPolicy.ofCode? i.value).isSome
  | 0x02 => (flagOfCode? i.value).isSome
  | _ => false

/-- The cell options after the items (R165). -/
def CellRec.setItems (c : CellRec) (items : List Item) : CellRec :=
  { c with motionPolicy := ((itemValue items 0x01).bind MotionPolicy.ofCode?).getD c.motionPolicy,
           eraseSuspend := ((itemValue items 0x02).bind flagOfCode?).getD c.eraseSuspend }

/-- The settings of the cell, by item code (R193). -/
def cellSettings (c : CellRec) : List Nat := [c.motionPolicy.code, flagCode c.eraseSuspend]

/-- SET_CELL (R165). -/
def reqSetCell (items : List Item) (s : State) : State × Answer :=
  if items.all cellItemOk && itemsDistinct items then
    let c := s.cell.setItems items
    ({ s with cell := c }, .accept false (settingsBytes (cellSettings c)))
  else (s, .refuse .badField)

/-! ## SET_STAGE (R117) -/

/-- The item of SET_STAGE is known (R117, R191). -/
def stageItemOk (i : Item) : Bool :=
  match i.code with
  | 0x01 => true
  | 0x02 => true
  | 0x03 => true
  | _ => false

/-- The value taken for an item of SET_STAGE (the table of R117). -/
def stageTaken (code v : Nat) : Nat :=
  match code with
  | 0x01 => clampRange 1000 15000 v
  | 0x02 => clampRange 0 15 v
  | 0x03 => clampRange 100 5000 v
  | _ => v

/-- The stage settings after the items taken (R117). -/
def StageRec.setItems (r : StageRec) (items : List Item) : StageRec :=
  { r with powerLimit := (itemValue items 0x01).getD r.powerLimit,
           gap := (itemValue items 0x02).getD r.gap,
           settleTime := (itemValue items 0x03).getD r.settleTime }

/-- The settings of a stage, by item code (R193). -/
def stageSettings (r : StageRec) : List Nat := [r.powerLimit, r.gap, r.settleTime]

/-- SET_STAGE (R117): taken in OFF or FAULT, refused with BUSY in SETTLING and READY. -/
def reqSetStage (stage : Nat) (items : List Item) (s : State) : State × Answer :=
  withStage stage (fun g s =>
    if items.all stageItemOk && itemsDistinct items then
      if (s.stage g).mode = .off || (s.stage g).mode = .fault then
        let r := (s.stage g).setItems (takenItems stageTaken items)
        (s.setStage g r, .accept (itemsClamped stageTaken items) (settingsBytes (stageSettings r)))
      else (s, .refuse .busy)
    else (s, .refuse .badField)) s

/-! ## SET_HEAD -/

/-- The item of SET_HEAD is known and, where it is not clamped, its value one of its choices
(R7, R64, R118, R122, R149, R166, R191). -/
def headItemOk (i : Item) : Bool :=
  match i.code with
  | 0x01 => (flagOfCode? i.value).isSome
  | 0x02 => true
  | 0x03 => (Stage.ofNum? i.value).isSome
  | 0x04 => true
  | 0x05 => (StalePolicy.ofCode? i.value).isSome
  | 0x06 => decide (i.value ≤ 15)
  | 0x07 => decide (i.value ≤ 15)
  | 0x08 => i.value = 2 || i.value = 4 || i.value = 8 || i.value = 16
  | 0x09 => (TuneStart.ofCode? i.value).isSome
  | 0x0A => true
  | 0x0B => true
  | 0x0C => true
  | 0x0D => (DriftPolicy.ofCode? i.value).isSome
  | 0x0E => true
  | 0x0F => (flagOfCode? i.value).isSome
  | 0x10 => true
  | 0x11 => true
  | 0x12 => (ClampReport.ofCode? i.value).isSome
  | 0x13 => true
  | _ => false

/-- The value taken for an item of SET_HEAD: clamped to the nearer end, and the two powers rounded down to 10 W
(R7, R64, R122, R149, R166). -/
def headTaken (code v : Nat) : Nat :=
  match code with
  | 0x02 => clampRange 1 8 v
  | 0x04 => downTo10 (clampRange 500 15000 v)
  | 0x0A => clampRange 1 30 v
  | 0x0B => downTo10 (clampRange 500 2000 v)
  | 0x0C => clampRange 0 255 v
  | 0x0E => clampRange 1 100 v
  | 0x10 => clampRange 10 100 v
  | 0x11 => clampRange 50 1000 v
  | 0x13 => clampRange 100 2000 v
  | _ => v

/-- The head settings after the items taken. -/
def HeadSettings.setItems (x : HeadSettings) (items : List Item) : HeadSettings where
  faultLimit := (itemValue items 0x02).getD x.faultLimit
  stage := ((itemValue items 0x03).bind Stage.ofNum?).getD x.stage
  powerLimit := (itemValue items 0x04).getD x.powerLimit
  stalePolicy := ((itemValue items 0x05).bind StalePolicy.ofCode?).getD x.stalePolicy
  floor := (itemValue items 0x06).getD x.floor
  ceiling := (itemValue items 0x07).getD x.ceiling
  settleStep := (itemValue items 0x08).getD x.settleStep
  startMode := ((itemValue items 0x09).bind TuneStart.ofCode?).getD x.startMode
  angleWindow := (itemValue items 0x0A).getD x.angleWindow
  probePower := (itemValue items 0x0B).getD x.probePower
  driftLimit := (itemValue items 0x0C).getD x.driftLimit
  driftPolicy := ((itemValue items 0x0D).bind DriftPolicy.ofCode?).getD x.driftPolicy
  loadShiftLimit := (itemValue items 0x0E).getD x.loadShiftLimit
  channelEnabled := ((itemValue items 0x0F).bind flagOfCode?).getD x.channelEnabled
  staleLimit := (itemValue items 0x10).getD x.staleLimit
  lostLimit := (itemValue items 0x11).getD x.lostLimit
  clampReport := ((itemValue items 0x12).bind ClampReport.ofCode?).getD x.clampReport
  flowGrace := (itemValue items 0x13).getD x.flowGrace

/-- A tuning setting of the head changes (R122). -/
def tuningChanges (old new : HeadSettings) : Bool :=
  !(new.floor = old.floor && new.ceiling = old.ceiling && new.settleStep = old.settleStep &&
    new.startMode = old.startMode && new.angleWindow = old.angleWindow && new.probePower = old.probePower &&
    new.driftLimit = old.driftLimit && new.driftPolicy = old.driftPolicy && new.loadShiftLimit = old.loadShiftLimit)

/-- The request would change what may not change under a joint: turning off, the map, a tuning setting or the channel
enable (R7, R118, R122, R149). -/
def changesUnderJoint (old new : HeadSettings) (enable : Option Nat) : Bool :=
  enable = some 0 || !(new.stage = old.stage) || tuningChanges old new || !(new.channelEnabled = old.channelEnabled)

/-- A frame of the head's present stage names the head (R96, R118). -/
def State.frameHolds (s : State) (h : Head) : Bool :=
  frameNames (s.stage (s.stageOf h)).active h || frameNames (s.stage (s.stageOf h)).pendingFrame h

/-- The state checks of SET_HEAD (R7, R118, R122, R149). -/
def State.setHeadCheck (s : State) (h : Head) (new : HeadSettings) (enable : Option Nat) : Option Reason :=
  if (s.head h).mode.occupied && changesUnderJoint (s.head h).settings new enable then some .busy
  else if !(new.stage = s.stageOf h) && s.frameHolds h then some .frameConflict
  else none

/-- The head is turned off (R7). -/
def State.turnHeadOff (s : State) (h : Head) : State :=
  if (s.head h).mode = .idle || (s.head h).mode = .faulted then
    (s.flushHead h).modHead h fun r => { r with faultCount := 0, mode := .disabled }
  else s

/-- The head is turned on, and activation re-tried (R7). -/
def State.turnHeadOn (s : State) (h : Head) : State :=
  if (s.head h).mode = .disabled then (s.modHead h fun r => { r with mode := .idle }).retry else s

/-- The head enable item acts (R7). -/
def State.enableHead (s : State) (h : Head) : Option Nat → State
  | some 0 => s.turnHeadOff h
  | some _ => s.turnHeadOn h
  | none => s

/-- All settings of a head, by item code (R193). -/
def headSettings (r : HeadRec) : List Nat :=
  let x := r.settings
  [flagCode (!(r.mode = .disabled)), x.faultLimit, x.stage.num, x.powerLimit, x.stalePolicy.code, x.floor, x.ceiling,
    x.settleStep, x.startMode.code, x.angleWindow, x.probePower, x.driftLimit, x.driftPolicy.code, x.loadShiftLimit,
    flagCode x.channelEnabled, x.staleLimit, x.lostLimit, x.clampReport.code, x.flowGrace]

/-- SET_HEAD: every check first, and then every setting it carries, before the re-try of a head turned on (R7). -/
def reqSetHead (head : Nat) (items : List Item) (s : State) : State × Answer :=
  withHead head (fun h s =>
    let new := (s.head h).settings.setItems (takenItems headTaken items)
    let enable := itemValue items 0x01
    if items.all headItemOk && itemsDistinct items && decide (new.floor ≤ new.ceiling) then
      match s.setHeadCheck h new enable with
      | some reason => (s, .refuse reason)
      | none =>
        let s' := (s.modHead h fun r => { r with settings := new }).enableHead h enable
        (s', .accept (itemsClamped headTaken items) (settingsBytes (headSettings (s'.head h))))
    else (s, .refuse .badField)) s

/-! ## The commands -/

/-- SET_CELL. -/
def execSetCell (time : Nat) (tag : Byte) (items : List Item) (s : State) : Host.Outcome State Fault Refusal :=
  atTime time s (respond .setCell tag false (reqSetCell items))

/-- SET_HEAD. -/
def execSetHead (time : Nat) (tag : Byte) (head : Nat) (items : List Item) (s : State) :
    Host.Outcome State Fault Refusal :=
  atTime time s (respond .setHead tag false (reqSetHead head items))

/-- SET_STAGE. -/
def execSetStage (time : Nat) (tag : Byte) (stage : Nat) (items : List Item) (s : State) :
    Host.Outcome State Fault Refusal :=
  atTime time s (respond .setStage tag false (reqSetStage stage items))

end Sys2Proof.Machine
end

