-- ==== Sys2Proof/Machine/StageCommands.lean ====
section
/-! DEFINITION. The stage interface's and the slot scheduler's commands (spec/04, spec/05): LOAD_FRAME, POWER, CLEAR_FAULT
for a stage, the reports of a stage, and the settle, completion, slot and split timers. -/

namespace Sys2Proof.Machine

/-! ## LOAD_FRAME (R93 to R95) -/

/-- A head a slot of the stage may name: H0 to H7, and mapped to the stage (R93). -/
def State.slotHead (s : State) (g : Stage) (n : Nat) : Option Head :=
  (Head.ofNum? n).filter fun h => s.stageOf h = g

/-- The split point lies inside the slot, or the slot is a removed one (R72, R93). -/
def splitInside (length point : Nat) : Bool := length = 0 || (decide (1 ≤ point) && decide (point + 1 ≤ length))

/-- The rule of a slot with the fields it uses, where they pass the checks of R93. -/
def State.slotRule (s : State) (g : Stage) (x : RawSlot) : Option SlotRule :=
  match x.rule with
  | 0x01 => some .passive
  | 0x02 => match s.slotHead g x.first, Fallback.ofCode? x.fallback with
    | some h, some fb => some (.fixed h fb)
    | _, _ => none
  | 0x03 => match s.slotHead g x.first, s.slotHead g x.second with
    | some h, some k => some (.prefer h k)
    | _, _ => none
  | 0x04 => some .rotate
  | 0x05 => match s.slotHead g x.first, Fallback.ofCode? x.fallback with
    | some h, some fb => some (.chain h fb)
    | _, _ => none
  | 0x06 => match s.slotHead g x.first, s.slotHead g x.second with
    | some h, some k =>
      if h = k then none else if splitInside x.length x.split then some (.split h k x.split) else none
    | _, _ => none
  | _ => none

/-- A slot that passes the checks of R93. -/
def State.slotOf (s : State) (g : Stage) (x : RawSlot) : Option Slot :=
  if 250 < x.length then none else (s.slotRule g x).map fun rule => { length := x.length, rule := rule }

/-- All slots of a list, where each passes its checks. -/
def State.slotsOf (s : State) (g : Stage) : List RawSlot → Option (List Slot)
  | [] => some []
  | x :: rest =>
    match s.slotOf g x, s.slotsOf g rest with
    | some y, some ys => some (y :: ys)
    | _, _ => none

/-- The frame of a slot list that passes every check of R93. -/
def State.frameOf (s : State) (g : Stage) (slots : List RawSlot) : Option (List Slot) :=
  if 1 ≤ slots.length && slots.length ≤ 8 && slots.any (fun x => !(x.length = 0)) then s.slotsOf g slots else none

/-- A valid frame is adopted at once (R95). -/
def State.adoptNow (s : State) (g : Stage) (f : List Slot) : State :=
  let s1 := (s.modStage g fun r => { r with active := some f, pendingFrame := none }).raise (.frameAdopted g)
  if (s.stage g).mode = .ready then s1.startFrame g s1.now else s1

/-- LOAD_FRAME (R93, R94, R95). -/
def reqLoadFrame (stage : Nat) (slots : List RawSlot) (s : State) : State × Answer :=
  withStage stage (fun g s =>
    match s.frameOf g slots with
    | none => (s, .refuse .frameInvalid)
    | some f =>
      if (s.stage g).mode = .ready && (s.stage g).active.isSome then
        (s.modStage g fun r => { r with pendingFrame := some f },
          .accept false (numField 2 (passTime f) ++ byteField 0x02))
      else (s.adoptNow g f, .accept false (numField 2 (passTime f) ++ byteField 0x01))) s

/-! ## POWER and CLEAR_FAULT for a stage (R101, R103, R107) -/

/-- The reply data of POWER: the stage state after the request (R101). -/
def State.powerAnswer (s : State) (g : Stage) : State × Answer :=
  (s, .accept false (byteField (s.stage g).mode.code))

/-- An OFF stage is powered (R101). -/
def State.powerUp (s : State) (g : Stage) : State :=
  (s.modStage g fun r =>
    { r with mode := .settling, busReady := false, settleTimer := some (s.now + r.settleTime) }).send g .busOn

/-- POWER on (R101). -/
def reqPowerOn (stage : Nat) (s : State) : State × Answer :=
  withStage stage (fun g s =>
    match (s.stage g).mode with
    | .off => if s.cell.estop.permits then (s.powerUp g).powerAnswer g else (s, .refuse .interlock)
    | .settling => s.powerAnswer g
    | .ready => s.powerAnswer g
    | .fault => (s, .refuse .busy)) s

/-- A member of the stage is in TUNING, HEATING or STOPPING (R103). -/
def State.memberStarted (s : State) (g : Stage) : Bool := (s.members g).any fun h => (s.head h).mode.started

/-- POWER off of a SETTLING or READY stage (R103). -/
def State.powerDown (s : State) (g : Stage) : State × Answer :=
  if s.memberStarted g then (s, .refuse .busy) else (s.turnOff g).powerAnswer g

/-- POWER off (R103). -/
def reqPowerOff (stage : Nat) (s : State) : State × Answer :=
  withStage stage (fun g s =>
    match (s.stage g).mode with
    | .off => s.powerAnswer g
    | .settling => s.powerDown g
    | .ready => s.powerDown g
    | .fault => s.powerAnswer g) s

/-- CLEAR_FAULT naming a stage (R107). -/
def reqClearFaultStage (stage : Nat) (s : State) : State × Answer :=
  withStage stage (fun g s =>
    match (s.stage g).mode with
    | .fault =>
      (s.modStage g fun r => { r with mode := .off, fault := r.fault.map fun c => { c with cleared := true } },
        .accept false [])
    | _ => (s, .accept false [])) s

/-! ## Reports of a stage (R104, R111, R113, R116) -/

/-- A bus report (R104). -/
def State.busReported (s : State) (g : Stage) (ready : Bool) : State :=
  let s1 := s.modStage g fun r => { r with busReady := ready }
  if (s.stage g).mode = .ready && !ready then s1.enterFault g .busLost 0 else s1

/-- A trip report (R113). -/
def State.tripReported (s : State) (g : Stage) (code : Nat) : State :=
  match (s.stage g).mode with
  | .settling => s.enterFault g .trip code
  | .ready => s.enterFault g .trip code
  | .off => s
  | .fault => s

/-- A message of a stage that fails the integrity check acts on nothing (R116). -/
def ifIntact (intact : Bool) (f : State → State) (s : State) : State := if intact then f s else s

/-! ## Timers of a stage -/

/-- The settle timer expires (R102). -/
def State.settleExpired (s : State) (g : Stage) (checksFirst : Bool) : State :=
  if (s.stage g).busReady then s.enterReady g checksFirst else s.enterFault g .busNotReady 0

/-! ## The commands -/

/-- LOAD_FRAME. -/
def execLoadFrame (time : Nat) (tag : Byte) (stage : Nat) (slots : List RawSlot) (s : State) :
    Host.Outcome State Fault Refusal :=
  atTime time s (respond .loadFrame tag false (reqLoadFrame stage slots))

/-- POWER with order on. -/
def execPowerOn (time : Nat) (tag : Byte) (stage : Nat) (s : State) : Host.Outcome State Fault Refusal :=
  atTime time s (respond .power tag false (reqPowerOn stage))

/-- POWER with order off. -/
def execPowerOff (time : Nat) (tag : Byte) (stage : Nat) (s : State) : Host.Outcome State Fault Refusal :=
  atTime time s (respond .power tag false (reqPowerOff stage))

/-- CLEAR_FAULT with target stage. -/
def execClearFaultStage (time : Nat) (tag : Byte) (stage : Nat) (s : State) : Host.Outcome State Fault Refusal :=
  atTime time s (respond .clearFault tag false (reqClearFaultStage stage))

/-- BUS_REPORT (R104, R116). -/
def execBusReport (time : Nat) (g : Stage) (intact ready : Bool) (s : State) : Host.Outcome State Fault Refusal :=
  atTime time s (ifIntact intact (·.busReported g ready))

/-- SEGMENT_REPORT (R111, R112, R116). The order of the tuner and the heat law unit is free (log entries 6, 9). -/
def execSegmentReport (time : Nat) (g : Stage) (intact : Bool) (report : SegReport) (s : State) :
    Host.Outcome State Fault Refusal :=
  atTime time s (ifIntact intact fun s =>
    s.chose.segmentReported g report (Config.reportOrder s.choices) (Config.tunerEventFirst s.choices))

/-- TRIP_REPORT (R113, R116). -/
def execTripReport (time : Nat) (g : Stage) (intact : Bool) (code : Nat) (s : State) :
    Host.Outcome State Fault Refusal :=
  atTime time s (ifIntact intact (·.tripReported g code))

/-- SETTLE_TIMER_EXPIRY (R102). The order of the first decision and the start checks is free (log entry 7). -/
def execSettleTimerExpiry (g : Stage) (s : State) : Host.Outcome State Fault Refusal :=
  atExpiry (s.stage g).settleTimer s fun s => s.chose.settleExpired g (Config.startChecksFirst s.choices)

/-- COMPLETION_TIMER_EXPIRY (R110). -/
def execCompletionTimerExpiry (g : Stage) (s : State) : Host.Outcome State Fault Refusal :=
  atExpiry (s.stage g).completionTimer s fun s => s.enterFault g .linkTimeout 0

/-- SLOT_TIMER_EXPIRY (R74, R76). -/
def execSlotTimerExpiry (g : Stage) (s : State) : Host.Outcome State Fault Refusal :=
  atExpiry ((s.stage g).running.map Running.slotTimer) s fun s =>
    match (s.stage g).running with
    | some run => s.slotExpiry g run
    | none => s

/-- SPLIT_TIMER_EXPIRY (R74, R82). -/
def execSplitTimerExpiry (g : Stage) (s : State) : Host.Outcome State Fault Refusal :=
  atExpiry ((s.stage g).running.bind Running.splitTimer) s fun s =>
    match (s.stage g).running with
    | some run => match run.splitTimer with
      | some t => s.splitExpiry g run t
      | none => s
    | none => s

end Sys2Proof.Machine
end

