-- ==== Sys2Proof/Machine/HeatTimers.lean ====
section
/-! DEFINITION. The phase timers of a joint (R38, R42, R46): DURATION_TIMER_EXPIRY and TIME_LIMIT_EXPIRY. -/

namespace Sys2Proof.Machine

/-- The head's current phase exits, and the cause it raises, if any, is taken (R40, R47). -/
def State.phaseExits (s : State) (h : Head) : State :=
  match (s.head h).joint with
  | some j =>
    let e := j.exitPhase s.now (s.head h).temp.tf
    (s.modHead h fun r => { r with joint := some e.1 }).takeCause? h e.2
  | none => s

/-- The duration timer of the head's phase has expired (R38). In STOPPING the expiry changes nothing (R46). -/
def State.durationExpired (s : State) (h : Head) : State :=
  if (s.head h).mode = .heating then
    if s.inFlight h then s.modJoint h fun j => { j with exitPending := true, limitTimer := none }
    else s.phaseExits h
  else s

/-- DURATION_TIMER_EXPIRY (R38). -/
def execDurationTimerExpiry (h : Head) (s : State) : Host.Outcome State Fault Refusal :=
  atExpiry ((s.head h).joint.bind Joint.durationTimer) s fun s =>
    (s.modJoint h fun j => { j with durationTimer := none }).durationExpired h

/-- TIME_LIMIT_EXPIRY (R42): PHASE_TIMEOUT is raised at the job manager. -/
def execTimeLimitExpiry (h : Head) (s : State) : Host.Outcome State Fault Refusal :=
  atExpiry ((s.head h).joint.bind Joint.limitTimer) s fun s =>
    (s.modJoint h fun j => { j with limitTimer := none }).takeCause h .phaseTimeout

end Sys2Proof.Machine
end

