-- ==== Sys2Proof/Machine/Temperature.lean ====
section
/-! DEFINITION. The temperature input (spec/07): a sample's range, filter and peak, the overtemperature check, the RAMP
exit a sample gives, and the lost timer. -/

namespace Sys2Proof.Machine

/-- The kind of a sample (R139). -/
def Sample.kind : Sample → Sample.Kind
  | .reading _ => .reading
  | .underRange => .underRange
  | .overRange => .overRange
  | .sensorFault => .sensorFault

/-- A taken sample's value in range, with its under and over flags (R140); a SENSOR_FAULT sample is not taken. -/
def sampleValue : Sample → Option (Nat × Bool × Bool)
  | .reading c =>
    if c < minTemp then some (minTemp, true, false)
    else if maxTemp < c then some (maxTemp, false, true)
    else some (c, false, false)
  | .underRange => some (minTemp, true, false)
  | .overRange => some (maxTemp, false, true)
  | .sensorFault => none

/-- The quotient of a difference by 2^k to the nearest whole number, a half rounded away from zero (R142). -/
def filterStep (k : Nat) (d : Int) : Int :=
  if k = 0 then d
  else if 0 ≤ d then (d + 2 ^ (k - 1)) / 2 ^ k
  else -((-d + 2 ^ (k - 1)) / 2 ^ k)

/-- Tf after a sample of value `v` (R142). -/
def filterTf (k : Nat) (tf : Option Nat) (v : Nat) : Nat :=
  match tf with
  | none => v
  | some t => ((t : Int) + filterStep k ((v : Int) - t)).toNat

/-- The filter depth of the joint: its recipe's, and 0 while no recipe is loaded (R142). -/
def Joint.filterDepth (j : Joint) : Nat :=
  match j.recipe with
  | some r => r.filterDepth
  | none => 0

/-- The peak after Tf has moved (R143). -/
def peakAfter (peak : Option Nat) (tf : Nat) : Nat :=
  match peak with
  | some p => max p tf
  | none => tf

/-- Steps 1 to 5 of R144 for a sample of value `v` taken at `now`. -/
def HeadRec.takeSample (r : HeadRec) (now v : Nat) (isUnder isOver : Bool) : HeadRec :=
  let t := { r.temp with lastValue := some (v, now), underFlag := isUnder, overFlag := isOver }
  match r.joint with
  | none => { r with temp := t }
  | some j =>
    let tf := filterTf j.filterDepth r.temp.tf v
    { r with temp := { t with lastTaken := some now, tf := some tf,
                              lostTimer := r.temp.lostTimer.map fun _ => now + r.settings.lostLimit },
             joint := some { j with peak := some (peakAfter j.peak tf) } }

/-- The overtemperature check of a head in TUNING or HEATING (R44, R148): Tf is above the recipe's ceiling. -/
def HeadRec.overtemp (r : HeadRec) : Bool :=
  match r.joint, r.temp.tf with
  | some j, some tf =>
    (r.mode = .tuning || r.mode = .heating) &&
      match j.recipe with
      | some rec => decide (rec.overtempCeiling < tf)
      | none => false
  | _, _ => false

/-- In a RAMP phase without T_entry, a sample sets T_entry (R36). -/
def Joint.firstEntry (j : Joint) (tf : Nat) : Joint :=
  match j.currentPhase, j.tEntry with
  | some (.ramp _ _), none => { j with tEntry := some tf }
  | _, _ => j

/-- The sample meets the exit of the current RAMP phase (R37). -/
def Joint.rampExit (j : Joint) (tf : Nat) : Bool :=
  match j.recipe, j.currentPhase with
  | some r, some (.ramp _ f) => rampMet tf f.tEnd r.exitBand
  | _, _ => false

/-- A sample is handed to the heat law unit (step 7 of R144; R36, R37). -/
def State.heatSample (s : State) (h : Head) : State :=
  match (s.head h).joint, (s.head h).temp.tf with
  | some j, some tf =>
    let s1 := s.modHead h fun r => { r with joint := some (j.firstEntry tf) }
    if j.rampExit tf then s1.phaseExits h else s1
  | _, _ => s

/-- Steps 6 and 7 of R144. -/
def State.checkSample (s : State) (h : Head) : State :=
  if (s.head h).overtemp then s.takeCause h .overtemp
  else if (s.head h).mode = .heating then s.heatSample h
  else s

/-- A sample arrives on the head's channel (R139, R144). A sample that fails the integrity check is a SENSOR_FAULT
sample. -/
def State.sample (s : State) (h : Head) (m : Sample) : State :=
  if (s.head h).settings.channelEnabled then
    let s1 := s.modHead h fun r => { r with temp := { r.temp with lastReceived := some (Sample.kind m, s.now) } }
    match sampleValue m with
    | none => s1
    | some (v, isUnder, isOver) => (s1.modHead h fun r => r.takeSample s.now v isUnder isOver).checkSample h
  else s

/-- PYROMETER_SAMPLE (R139, R144). -/
def execPyrometerSample (time : Nat) (h : Head) (intact : Bool) (m : Sample) (s : State) :
    Host.Outcome State Fault Refusal :=
  atTime time s fun s => s.sample h (if intact then m else .sensorFault)

/-- LOST_TIMER_EXPIRY (R147): SENSOR_LOST is raised at the job manager, and the timer is stopped. -/
def execLostTimerExpiry (h : Head) (s : State) : Host.Outcome State Fault Refusal :=
  atExpiry (s.head h).temp.lostTimer s fun s =>
    (s.modHead h fun r => { r with temp := { r.temp with lostTimer := none } }).takeCause h .sensorLost

end Sys2Proof.Machine
end

