-- ==== Sys2Proof/Machine/Interlock.lean ====
section
/-! DEFINITION. The interlock block (spec/08): HOLD, RESUME and the device clear, the 2 ms filters of the line inputs,
what each taken level does, and the flow grace timer. -/

namespace Sys2Proof.Machine

/-! ## HOLD, RESUME and CLEAR_FAULT for the device (R154, R155, R156) -/

/-- The reply data of HOLD and RESUME: the device mode after the request (R154, R193). -/
def State.modeAnswer (s : State) : State × Answer := (s, .accept false (byteField s.cell.mode.code))

/-- The device mode becomes `m`. -/
def State.setMode (s : State) (m : DeviceMode) : State := { s with cell := { s.cell with mode := m } }

/-- HOLD (R154). -/
def reqHold (s : State) : State × Answer :=
  match s.cell.mode with
  | .run => (s.setMode .hold).modeAnswer
  | .hold => s.modeAnswer
  | .interlocked => s.modeAnswer

/-- RESUME (R155). -/
def reqResume (s : State) : State × Answer :=
  match s.cell.mode with
  | .run => s.modeAnswer
  | .hold =>
    if s.cell.estop.taken = none then (s, .refuse .interlock)
    else ((s.setMode .run).startChecks Head.all).modeAnswer
  | .interlocked => (s, .refuse .interlock)

/-- CLEAR_FAULT naming the device (R156). -/
def reqClearFaultDevice (s : State) : State × Answer :=
  match s.cell.mode with
  | .run => (s, .accept false [])
  | .hold => (s, .accept false [])
  | .interlocked =>
    if s.cell.estop.permits && s.cell.motion.permits then
      ({ s with cell := { s.cell with mode := .hold, causeEstop := false, causeMotion := false } }, .accept false [])
    else (s, .refuse .interlock)

/-! ## The input filters (R152, R153) -/

/-- A line input changes its level and its filter timer starts anew (R152). A level equal to the pin's is no change. -/
def State.lineChange (s : State) (i : LineInput) (level : Level) : State :=
  if (s.input i).pin = level then s
  else s.setInput i { s.input i with pin := level, filter := some (s.now + filterTime) }

/-- The pin of a part held in reset follows its line; no filter runs (R195). -/
def State.linePin (s : State) (i : LineInput) (level : Level) : State := s.setInput i { s.input i with pin := level }

/-- The filter timer that ends with a change to `level` (R152): the pin stands at `level` and a level is known. -/
def Input.changeDue (x : Input) (level : Level) : Option Nat :=
  if x.pin = level && x.taken.isSome then x.filter else none

/-- The filter timer that ends with an initial level (R153). -/
def Input.initialDue (x : Input) : Option Nat := if x.taken = none then x.filter else none

/-- The filter timer has expired and the pin's level is the taken level (R152). -/
def State.takeLevel (s : State) (i : LineInput) : State :=
  s.setInput i { s.input i with taken := some (s.input i).pin, filter := none }

/-- A taken change to `level` acts by `act`; a filter that ends at the level already taken takes no change (R152, log
entry 23). -/
def State.takeChange (s : State) (i : LineInput) (level : Level) (act : State → State) : State :=
  if (s.input i).taken = some level then s.takeLevel i else act (s.takeLevel i)

/-! ## ESTOP (R157, R158) -/

/-- Step 1 of R157. -/
def State.estopMode (s : State) : State :=
  { s with cell := { s.cell with mode := .interlocked, causeEstop := true } }

/-- Step 2 of R157: the stage interface turns every SETTLING and READY stage OFF (R108). -/
def State.estopStages (s : State) : State := (s.estopStage .s0).estopStage .s1

/-- Step 3 of R157: ABORTED_ESTOP for every started head, in ascending head number. -/
def State.estopJoints (s : State) : State :=
  s.eachHead (fun s h => (s.head h).mode.started) fun h s => s.takeCause h .abortedEstop

/-- Steps 2, 3 and 5 of R157. The stages and the joints come in either order (`stagesFirst`), and the ESTOP event stands
before, between or after what they raise (`place`); log entry 8. -/
def State.estopActs (s : State) (stagesFirst : Bool) (place : EventPlace) : State :=
  let s1 := if place = .first then s.raise (.estop true) else s
  let s2 := if stagesFirst then s1.estopStages else s1.estopJoints
  let s3 := if place = .between then s2.raise (.estop true) else s2
  let s4 := if stagesFirst then s3.estopJoints else s3.estopStages
  if place = .last then s4.raise (.estop true) else s4

/-- An ESTOP assertion is taken (R157). Its step 4, the start checks of the ARMED heads, fails in INTERLOCKED. -/
def State.estopAssert (s : State) (stagesFirst : Bool) (place : EventPlace) : State :=
  s.estopMode.estopActs stagesFirst place

/-- An ESTOP assertion with its free choice made (log entries 8, 26). -/
def State.estopTaken (s : State) : State :=
  s.chose.estopAssert (Config.stagesOffFirst s.choices) (Config.estopEventPlace s.choices)

/-! ## MOTION (R159, R160) -/

/-- Some head is in TUNING, HEATING or STOPPING (R159). -/
def State.anyStarted (s : State) : Bool := Head.all.any fun h => (s.head h).mode.started

/-- A MOTION assertion with no head started (R159): MOTION joins the causes of an INTERLOCKED device. -/
def State.motionNoted (s : State) : State :=
  { s with cell := { s.cell with causeMotion := s.cell.causeMotion || decide (s.cell.mode = DeviceMode.interlocked) } }.raise
    (.motion .assertedNotInterlocked)

/-- Steps 1 and 2 of R159 with a head started. -/
def State.motionInterlocks (s : State) : State :=
  { s with cell := { s.cell with mode := .interlocked, causeMotion := true } }.raise (.motion .assertedInterlocked)

/-- Step 3 of R159: under FLUSH every queue is flushed. -/
def State.motionFlush (s : State) : State :=
  match s.cell.motionPolicy with
  | .flush => Head.all.foldl State.flushHead s
  | .keep => s

/-- ABORTED_MOTION is raised for the head (step 4 of R159). -/
def State.motionAborts (s : State) (h : Head) : Bool :=
  (s.head h).mode.started || ((s.head h).mode = .armed && s.cell.motionPolicy = .flush)

/-- A MOTION assertion is taken (R159). -/
def State.motionAssert (s : State) : State :=
  if s.anyStarted then
    s.motionInterlocks.motionFlush.eachHead State.motionAborts fun h s => s.takeCause h .abortedMotion
  else s.motionNoted

/-! ## CLAMP (R161, R162) -/

/-- The clamp edge report selects the rising edge (R162). -/
def ClampReport.rises : ClampReport → Bool
  | .none => false
  | .rise => true
  | .fall => false
  | .both => true

/-- The clamp edge report selects the falling edge (R162). -/
def ClampReport.falls : ClampReport → Bool
  | .none => false
  | .rise => false
  | .fall => true
  | .both => true

/-- The event is raised where the test holds. -/
def State.raiseIf (s : State) (b : Bool) (e : Event) : State := if b then s.raise e else s

/-- A CLAMP falling edge is taken: CLAMP_LOST, and CLAMP_FALL as selected (R161, R162). The start check of an ARMED
joint fails on the open clamp. -/
def State.clampFell (s : State) (h : Head) : State :=
  (s.takeCause h .clampLost).raiseIf (s.head h).settings.clampReport.falls (.clampFall h)

/-- A rising edge counts as start seen for an ARMED joint with start mode ON_CLAMP (R12, R161). -/
def State.clampSeen (s : State) (h : Head) : State :=
  if (s.head h).mode = .armed then
    s.modJoint h fun j => { j with startSeen := j.startSeen || decide (j.job.startMode = .onClamp) }
  else s

/-- A CLAMP rising edge is taken: start seen, the start check, and CLAMP_RISE as selected (R161, R162). -/
def State.clampRose (s : State) (h : Head) : State :=
  ((s.clampSeen h).startCheck h).raiseIf (s.head h).settings.clampReport.rises (.clampRise h)

/-! ## FLOW (R163, R164) -/

/-- The head's flow grace timer is set. -/
def State.setGrace (s : State) (h : Head) (t : Option Nat) : State :=
  s.modHead h fun r => { r with line := { r.line with graceTimer := t } }

/-- The head is TUNING or HEATING. -/
def HeadMode.heats : HeadMode → Bool
  | .tuning => true
  | .heating => true
  | .stopping => false
  | .disabled => false
  | .idle => false
  | .armed => false
  | .faulted => false

/-- A FLOW falling edge is taken (R163). The start check of an ARMED joint fails on the low flow. -/
def State.flowFell (s : State) (h : Head) : State :=
  let s1 := s.raise (.flowLow h)
  if (s1.head h).mode.heats then s1.setGrace h (some (s1.now + (s1.head h).settings.flowGrace)) else s1

/-- A FLOW rising edge is taken (R163). -/
def State.flowRose (s : State) (h : Head) : State := ((s.raise (.flowOk h)).setGrace h none).startCheck h

/-- The flow grace timer expires (R164), the cause before the event (log entry 34). -/
def State.graceExpired (s : State) (h : Head) : State :=
  ((s.setGrace h none).takeCause h .coolant).raise (.coolantFault h)

/-! ## The commands -/

/-- HOLD. -/
def execHold (time : Nat) (tag : Byte) (s : State) : Host.Outcome State Fault Refusal :=
  atTime time s (respond .hold tag false reqHold)

/-- RESUME. -/
def execResume (time : Nat) (tag : Byte) (s : State) : Host.Outcome State Fault Refusal :=
  atTime time s (respond .resume tag false reqResume)

/-- CLEAR_FAULT with target device. -/
def execClearFaultDevice (time : Nat) (tag : Byte) (s : State) : Host.Outcome State Fault Refusal :=
  atTime time s (respond .clearFault tag false reqClearFaultDevice)

/-- LINE_INPUT_CHANGE (R152). A part held in reset sees only the pin move (R195, log entry 17). -/
def execLineInputChange (time : Nat) (i : LineInput) (level : Level) (s : State) : Host.Outcome State Fault Refusal :=
  if s.inReset then .next ((s.advance time).linePin i level) else .next ((s.advance time).lineChange i level)

/-- INITIAL_LEVEL_TAKEN (R153): an ESTOP asserted acts through R157, and every other initial level by its level alone. -/
def execInitialLevelTaken (i : LineInput) (s : State) : Host.Outcome State Fault Refusal :=
  atExpiry (s.input i).initialDue s fun s =>
    let s' := s.takeLevel i
    if i = .estop && s'.cell.estop.taken = some .low then s'.estopTaken else s'

/-- ESTOP_ASSERTED (R157). -/
def execEstopAsserted (s : State) : Host.Outcome State Fault Refusal :=
  atExpiry ((s.input .estop).changeDue .low) s (·.takeChange .estop .low State.estopTaken)

/-- ESTOP_RELEASED (R158). -/
def execEstopReleased (s : State) : Host.Outcome State Fault Refusal :=
  atExpiry ((s.input .estop).changeDue .high) s (·.takeChange .estop .high (·.raise (.estop false)))

/-- MOTION_ASSERTED (R159). -/
def execMotionAsserted (s : State) : Host.Outcome State Fault Refusal :=
  atExpiry ((s.input .motion).changeDue .low) s (·.takeChange .motion .low State.motionAssert)

/-- MOTION_RELEASED (R160). -/
def execMotionReleased (s : State) : Host.Outcome State Fault Refusal :=
  atExpiry ((s.input .motion).changeDue .high) s
    (·.takeChange .motion .high fun s => (s.raise (.motion .released)).startChecks Head.all)

/-- CLAMP_FALLING_EDGE (R161). -/
def execClampFallingEdge (h : Head) (s : State) : Host.Outcome State Fault Refusal :=
  atExpiry ((s.input (.clamp h)).changeDue .low) s (·.takeChange (.clamp h) .low (·.clampFell h))

/-- CLAMP_RISING_EDGE (R161). -/
def execClampRisingEdge (h : Head) (s : State) : Host.Outcome State Fault Refusal :=
  atExpiry ((s.input (.clamp h)).changeDue .high) s (·.takeChange (.clamp h) .high (·.clampRose h))

/-- FLOW_FALLING_EDGE (R163). -/
def execFlowFallingEdge (h : Head) (s : State) : Host.Outcome State Fault Refusal :=
  atExpiry ((s.input (.flow h)).changeDue .low) s (·.takeChange (.flow h) .low (·.flowFell h))

/-- FLOW_RISING_EDGE (R163). -/
def execFlowRisingEdge (h : Head) (s : State) : Host.Outcome State Fault Refusal :=
  atExpiry ((s.input (.flow h)).changeDue .high) s (·.takeChange (.flow h) .high (·.flowRose h))

/-- The KEY filter that ends with a change of the taken level, to either level (R152). -/
def State.keyDue (s : State) : Option Nat :=
  if s.cell.key.taken = none then none else s.cell.key.filter

/-- KEY_CHANGE (R152): the taken level follows the pin, and no event is raised. -/
def execKeyChange (s : State) : Host.Outcome State Fault Refusal :=
  atExpiry s.keyDue s (·.takeLevel .key)

/-- FLOW_GRACE_TIMER_EXPIRY (R164). -/
def execFlowGraceTimerExpiry (h : Head) (s : State) : Host.Outcome State Fault Refusal :=
  atExpiry (s.head h).line.graceTimer s (·.graceExpired h)

end Sys2Proof.Machine
end

