-- ==== Sys2Proof/Machine/Store.lean ====
section
/-! DEFINITION. The recipe store's own commands (spec/10): PROGRAM_RECIPE, ERASE_BANK, READ_RECIPE, CLEAR_STORE,
SET_PROTECT, the completions and the end of a suspension. The recipe fetches stand with the job manager. -/

namespace Sys2Proof.Machine

/-- The entry a request names; a number above 63 names none (R177, R178, R183). -/
def entryOf? (n : Nat) : Option (Fin 64) := if h : n < 64 then some ⟨n, h⟩ else none

/-- The bank a request names; a number above 3 names none (R177, R179). -/
def bankOf? (n : Nat) : Option (Fin 4) := if h : n < 4 then some ⟨n, h⟩ else none

/-- The bank of an entry (R177). -/
def entryBank (e : Fin 64) : Fin 4 := ⟨e.val / 16, by have := e.isLt; omega⟩

/-- The bank is writable (R184). -/
def State.writable (s : State) (b : Nat) : Bool :=
  s.store.workingEnable && (decide (2 ≤ b) || (s.store.masterEnable && s.cell.key.permits))

/-- An error flag is set (R178, R179). -/
def StoreRec.errorPending (t : StoreRec) : Bool := t.programError || t.eraseError

/-! ## PROGRAM_RECIPE and ERASE_BANK (R178, R179) -/

/-- The state checks a program and an erase share, in their order (R178, R179). -/
def State.storeCheck (s : State) (b : Nat) : Option Reason :=
  if !(s.store.mode = .ready) then some .storeBusy
  else if s.store.errorPending then some .storeErrorPending
  else if !(s.writable b) then some .isProtected
  else none

/-- The recipe of a record that passes the checks of R29 and R30. -/
def recipeOf? (record : List Byte) : Option Recipe := (parseRecipe record).filter Recipe.valid

/-- An accepted program (R178). -/
def State.startProgram (s : State) (e : Fin 64) (r : Recipe) : State :=
  { s with store := { s.store with mode := .programming, op := some (.program e r),
                                   opTimer := some (s.now + programTime), carried := false } }

/-- PROGRAM_RECIPE (R178). -/
def reqProgramRecipe (entry : Nat) (record : List Byte) (s : State) : State × Answer :=
  match entryOf? entry with
  | none => (s, .refuse .badField)
  | some e =>
    match recipeOf? record with
    | none => (s, .refuse .badRecipe)
    | some r =>
      match s.storeCheck (bankOf entry) with
      | some reason => (s, .refuse reason)
      | none =>
        if s.store.entries[e] = .blank then (s.startProgram e r, .accept false []) else (s, .refuse .notBlank)

/-- An accepted erase (R179). -/
def State.startErase (s : State) (b : Fin 4) : State :=
  { s with store := { s.store with mode := .erasing, op := some (.erase b), opTimer := some (s.now + eraseTime),
                                   carried := false } }

/-- ERASE_BANK (R179). -/
def reqEraseBank (bank : Nat) (s : State) : State × Answer :=
  match bankOf? bank with
  | none => (s, .refuse .badField)
  | some b =>
    match s.storeCheck bank with
    | some reason => (s, .refuse reason)
    | none => (s.startErase b, .accept false [])

/-! ## READ_RECIPE, CLEAR_STORE and SET_PROTECT (R183, R184) -/

/-- The code of an entry's stored state (R192). -/
def Entry.code : Entry → Nat
  | .blank => 0x01 | .valid _ => 0x02 | .spoiled => 0x03

/-- The code of the state of an entry in a bank being erased (R192). -/
def erasingCode : Nat := 0x04

/-- The reply data of READ_RECIPE: the entry state as read, and a VALID entry's record (R183, R193). -/
def StoreRec.readBytes (t : StoreRec) (e : Fin 64) : List Byte :=
  if t.erases e.val then byteField erasingCode
  else match t.entries[e] with
    | .valid r => byteField (Entry.valid r).code ++ recipeBytes r
    | .blank => byteField Entry.blank.code
    | .spoiled => byteField Entry.spoiled.code

/-- READ_RECIPE (R183). -/
def reqReadRecipe (entry : Nat) (s : State) : State × Answer :=
  match entryOf? entry with
  | none => (s, .refuse .badField)
  | some e =>
    if s.store.mode = .ready || s.store.erases entry then (s, .accept false (s.store.readBytes e))
    else (s, .refuse .storeBusy)

/-- CLEAR_STORE (R183). -/
def reqClearStore (s : State) : State × Answer :=
  ({ s with store := { s.store with programError := false, eraseError := false } },
    .accept false (flagField s.store.programError ++ flagField s.store.eraseError))

/-- SET_PROTECT (R184). -/
def reqSetProtect (working master : Nat) (s : State) : State × Answer :=
  match flagOfCode? working, flagOfCode? master with
  | some w, some m =>
    if m && !s.store.masterEnable && !s.cell.key.permits then (s, .refuse .isProtected)
    else ({ s with store := { s.store with workingEnable := w, masterEnable := m } },
      .accept false (flagField w ++ flagField m))
  | _, _ => (s, .refuse .badField)

/-! ## Completions (R180) -/

/-- Entry `e` becomes `x`. -/
def StoreRec.setEntry (t : StoreRec) (e : Fin 64) (x : Entry) : StoreRec := { t with entries := t.entries.set e x }

/-- Every entry of bank `b` becomes `x`. -/
def StoreRec.setBank (t : StoreRec) (b : Fin 4) (x : Entry) : StoreRec :=
  { t with entries := Vector.ofFn fun i => if entryBank i = b then x else t.entries[i] }

/-- Step 1 of R180 for a program. -/
def StoreRec.verifyProgram (t : StoreRec) (e : Fin 64) (r : Recipe) (passed : Bool) : StoreRec :=
  if passed then t.setEntry e (.valid r) else { t.setEntry e .spoiled with programError := true }

/-- Step 1 of R180 for an erase. -/
def StoreRec.verifyErase (t : StoreRec) (b : Fin 4) (passed : Bool) : StoreRec :=
  if passed then t.setBank b .blank else { t.setBank b .spoiled with eraseError := true }

/-- Step 2 of R180: no operation is in flight. -/
def StoreRec.settle (t : StoreRec) : StoreRec :=
  { t with mode := .ready, op := none, opTimer := none, carried := false }

/-- Steps 2 to 4 of R180, with the entries in their new states in `t`: READY, STORE_DONE unless a warm reset carried
the operation (R185), and the waiting fetches served. -/
def State.storeDone (s : State) (t : StoreRec) (e : Event) : State :=
  let s1 := { s with store := t.settle }
  (if t.carried then s1 else s1.raise e).serveAll

/-- The program in flight completes (R180). -/
def State.programDone (s : State) (passed : Bool) : State :=
  match s.store.op with
  | some (.program e r) =>
    s.storeDone (s.store.verifyProgram e r passed) (.storeDone (entryBank e) (.program e) passed)
  | some (.erase _) => s
  | none => s

/-- The erase in flight completes (R180). -/
def State.eraseDone (s : State) (passed : Bool) : State :=
  match s.store.op with
  | some (.erase b) => s.storeDone (s.store.verifyErase b passed) (.storeDone b .erase passed)
  | some (.program _ _) => s
  | none => s

/-- The operation timer of a program in flight. -/
def StoreRec.programDue (t : StoreRec) : Option Nat :=
  match t.op with
  | some (.program _ _) => t.opTimer
  | some (.erase _) => none
  | none => none

/-- The operation timer of an erase in flight. -/
def StoreRec.eraseDue (t : StoreRec) : Option Nat :=
  match t.op with
  | some (.erase _) => t.opTimer
  | some (.program _ _) => none
  | none => none

/-- The end of a suspension (R182): the waiting fetches are served, and the erase runs on with its kept time. -/
def State.suspendEnds (s : State) : State :=
  let s1 := State.serveAll { s with store := { s.store with suspendTimer := none } }
  { s1 with store := { s1.store with mode := .erasing, opTimer := s1.store.remaining.map (s1.now + ·),
                                     remaining := none } }

/-- A store timer's expiry. The store's operation runs on through a warm reset, a part held in reset included (R185,
log entry 17). -/
def atStoreExpiry (timer : Option Nat) (s : State) (f : State → State) : Host.Outcome State Fault Refusal :=
  match timer with
  | none => .next s
  | some t => .next (f (s.advance t))

/-! ## The commands -/

/-- READ_RECIPE. -/
def execReadRecipe (time : Nat) (tag : Byte) (entry : Nat) (s : State) : Host.Outcome State Fault Refusal :=
  atTime time s (respond .readRecipe tag false (reqReadRecipe entry))

/-- PROGRAM_RECIPE. -/
def execProgramRecipe (time : Nat) (tag : Byte) (entry : Nat) (record : List Byte) (s : State) :
    Host.Outcome State Fault Refusal :=
  atTime time s (respond .programRecipe tag false (reqProgramRecipe entry record))

/-- ERASE_BANK. -/
def execEraseBank (time : Nat) (tag : Byte) (bank : Nat) (s : State) : Host.Outcome State Fault Refusal :=
  atTime time s (respond .eraseBank tag false (reqEraseBank bank))

/-- CLEAR_STORE. -/
def execClearStore (time : Nat) (tag : Byte) (s : State) : Host.Outcome State Fault Refusal :=
  atTime time s (respond .clearStore tag false reqClearStore)

/-- SET_PROTECT. -/
def execSetProtect (time : Nat) (tag : Byte) (working master : Nat) (s : State) :
    Host.Outcome State Fault Refusal :=
  atTime time s (respond .setProtect tag false (reqSetProtect working master))

/-- PROGRAM_COMPLETE (R180): the verify passes or fails as the medium gives it. -/
def execProgramComplete (passed : Bool) (s : State) : Host.Outcome State Fault Refusal :=
  atStoreExpiry s.store.programDue s (·.programDone passed)

/-- ERASE_COMPLETE (R180). -/
def execEraseComplete (passed : Bool) (s : State) : Host.Outcome State Fault Refusal :=
  atStoreExpiry s.store.eraseDue s (·.eraseDone passed)

/-- SUSPEND_TIMER_EXPIRY (R182). -/
def execSuspendTimerExpiry (s : State) : Host.Outcome State Fault Refusal :=
  atStoreExpiry s.store.suspendTimer s State.suspendEnds

end Sys2Proof.Machine
end

