-- ==== Sys2Proof/Machine/Replies.lean ====
section
/-! DEFINITION. The reading requests and the fetches, with the layout of their replies (R193): IDENTIFY, GET_STATUS,
GET_HEAD, GET_STAGE, GET_FRAME, GET_STORE, FETCH_RESULTS and FETCH_EVENTS. How the fields of the gathered replies follow
one another is log entry 19. -/

namespace Sys2Proof.Machine

/-- An optional byte (R193). -/
def optByte (v : Option Nat) : List Byte := optNum 1 v

/-- The time left to a timer's expiry, where it runs (R193). -/
def leftField (now : Nat) (timer : Option Nat) : List Byte := optNum 4 (timer.map (· - now))

/-- A value that is given only where the test holds. -/
def givenIf (b : Bool) (v : Nat) : Option Nat := if b then some v else none

/-! ## IDENTIFY and GET_STATUS (R194) -/

/-- The part code (R194). -/
def partCode : Nat := 0x0B08

/-- IDENTIFY (R194). -/
def reqIdentify (s : State) : State × Answer :=
  (s, .accept false
    (numField 2 partCode ++ [Config.hardwareRevision] ++ bytesBE 2 Config.firmwareRevision.toNat ++
      byteField (rateCode s.link.rate) ++ byteField s.link.lastReset.code ++ numField 2 s.link.linkErrors ++
      numField 2 s.link.overruns))

/-- The link part of GET_STATUS (R194). -/
def linkPart (l : LinkRec) : List Byte :=
  numField 2 l.linkErrors ++ numField 2 l.overruns ++ byteField (rateCode l.rate) ++ byteField l.lastReset.code

/-- The interlock causes as one byte (R192). -/
def causesCode (c : CellRec) : Nat := flagCode c.causeEstop + 2 * flagCode c.causeMotion

/-- The interlock part of GET_STATUS (R167). -/
def interlockPart (c : CellRec) : List Byte :=
  byteField c.mode.code ++ byteField (causesCode c) ++ byteField (takenCode c.estop.taken) ++
    byteField (takenCode c.motion.taken) ++ byteField (takenCode c.key.taken) ++ byteField c.motionPolicy.code ++
    flagField c.eraseSuspend

/-- An index tracker entry in GET_STATUS (R25). -/
def trackerBytes (e : IndexEntry) : List Byte :=
  numField 2 e.tag ++ byteField e.outstanding ++ numField 2 e.ended ++ numField 2 e.failed ++ flagField e.closed

/-- The job manager's part of GET_STATUS (R25). -/
def State.jobPart (s : State) : List Byte :=
  (Head.all.flatMap fun h => byteField (s.head h).mode.code) ++
    (Head.all.flatMap fun h => byteField (s.head h).queue.length) ++ byteField s.activeJoints ++
    listField trackerBytes s.tracker

/-- The stage part of GET_STATUS (R120). -/
def State.stagePart (s : State) : List Byte :=
  (Stage.all.flatMap fun g => byteField (s.stage g).mode.code) ++
    (Stage.all.flatMap fun g => headField (s.stage g).matrix) ++
    (Stage.all.flatMap fun g => flagField (s.stage g).segment.isSome) ++
    Stage.all.flatMap fun g => optByte ((s.stage g).fault.map fun c => c.cause.code)

/-- The report block's part of GET_STATUS (R176). -/
def State.reportPart (s : State) : List Byte :=
  byteField s.report.results.length ++ byteField s.activeJoints ++
    byteField (resultCapacity - (s.report.results.length + s.activeJoints)) ++ byteField s.report.events.length ++
    byteField s.report.eventsLost ++ flagField s.report.attn

/-- GET_STATUS (R194). -/
def reqGetStatus (s : State) : State × Answer :=
  (s, .accept false
    (linkPart s.link ++ interlockPart s.cell ++ s.jobPart ++ s.stagePart ++ s.reportPart ++
      byteField s.store.mode.code ++ flagField s.store.programError ++ flagField s.store.eraseError))

/-! ## GET_HEAD (R25, R48, R71, R63, R137, R150, R167) -/

/-- A field of the active joint, given where the test holds. -/
def HeadRec.jointNum (r : HeadRec) (test : Bool) (f : Joint → Nat) : Option Nat :=
  if test then r.joint.map f else none

/-- The job manager's part of GET_HEAD (R25). -/
def jobHeadPart (r : HeadRec) : List Byte :=
  byteField r.mode.code ++
    optByte (r.jointNum (r.mode = .armed) fun j => flagCode j.recipe.isSome) ++
    optByte (r.jointNum (r.mode = .armed) fun j => flagCode j.startSeen) ++
    optNum 2 (r.jointNum true fun j => j.job.jobTag) ++ optNum 2 (r.jointNum true fun j => j.job.indexTag) ++
    optByte (r.jointNum true fun j => j.job.recipe) ++
    optByte (r.joint.bind Joint.phase) ++
    optByte (if r.mode = .stopping then (r.joint.bind Joint.cause).map JointOutcome.code else none) ++
    listField (fun j : Job => numField 2 j.jobTag) r.queue ++ byteField r.faultCount ++ byteField r.settings.faultLimit

/-- Phase kinds (11.4). -/
def Phase.kindCode : Phase → Nat
  | .ramp _ _ => 0x01 | .soak _ _ => 0x02 | .dwell _ => 0x03

/-- The phase is a RAMP phase. -/
def Phase.isRamp : Phase → Bool
  | .ramp _ _ => true
  | .soak _ _ => false
  | .dwell _ => false

/-- The head is HEATING or STOPPING, and a phase has been entered (R48). -/
def HeadRec.inPhase (r : HeadRec) : Bool :=
  (r.mode = .heating || r.mode = .stopping) && (r.joint.bind Joint.phase).isSome

/-- T_entry of a RAMP phase (R48). -/
def HeadRec.rampEntry (r : HeadRec) : Option Nat :=
  match r.joint with
  | some j => if r.inPhase && (j.currentPhase.map Phase.isRamp).getD false then j.tEntry else none
  | none => none

/-- The heat part of GET_HEAD (R48). -/
def heatPart (now : Nat) (r : HeadRec) : List Byte :=
  let loaded := r.mode.started || (r.mode = .armed && (r.joint.bind Joint.recipe).isSome)
  optNum 3 (r.jointNum r.mode.started Joint.energy) ++ optNum 3 (r.jointNum loaded Joint.minEnergy) ++
    optNum 3 (r.jointNum loaded Joint.ceiling) ++
    optByte (if r.inPhase then r.joint.bind Joint.phase else none) ++
    optByte (if r.inPhase then (r.joint.bind Joint.currentPhase).map Phase.kindCode else none) ++
    optNum 4 (r.jointNum r.inPhase (·.elapsed now)) ++ optNum 3 (r.jointNum r.inPhase Joint.phaseEnergy) ++
    optNum 2 r.rampEntry ++ optByte (r.jointNum r.inPhase fun j => flagCode j.exitPending) ++
    optByte (r.jointNum r.mode.started fun j => j.phaseList.length)

/-- The decision record's bytes (R63). -/
def decisionBytes (d : DecisionRecord) : List Byte :=
  timeField d.time ++ byteField d.basis.code ++ optNum 4 d.age ++ optNum 2 d.target ++
    optField 2 (d.error.map (intField 2)) ++ numField 2 d.cap ++ numField 2 d.lowerBound ++ numField 2 d.setpoint ++
    flagField d.orderSent

/-- The decision record, for a head in HEATING or STOPPING (R63). -/
def HeadRec.shownDecision (r : HeadRec) : Option DecisionRecord :=
  if r.mode = .heating || r.mode = .stopping then r.joint.bind Joint.decision else none

/-- The remainder of R71 and the decision record of R63. -/
def heatRecordPart (r : HeadRec) : List Byte :=
  optNum 2 (r.jointNum r.mode.started Joint.remainder) ++ optField 23 (r.shownDecision.map decisionBytes)

/-- The tuning part of GET_HEAD (R137), with the two flags as the request finds them. -/
def tuningPart (r : HeadRec) : List Byte :=
  let t := r.tuning
  let x := r.settings
  byteField t.currentTap ++ byteField t.lockState.code ++ optByte t.skipTap ++ optByte (t.lastLock.map LockRecord.tap) ++
    optNum 2 (t.lastLock.map LockRecord.load) ++ byteField t.driftCount ++ flagField t.ceilingReached ++
    flagField t.lockHeld ++ byteField x.floor ++ byteField x.ceiling ++ byteField x.settleStep ++
    byteField x.startMode.code ++ byteField x.angleWindow ++ numField 2 x.probePower ++ byteField x.driftLimit ++
    byteField x.driftPolicy.code ++ byteField x.loadShiftLimit ++
    optByte ((r.joint.bind Joint.lock).map LockRecord.tap) ++ optNum 2 ((r.joint.bind Joint.lock).map LockRecord.load)

/-- The temperature part of GET_HEAD (R150). -/
def temperaturePart (now : Nat) (r : HeadRec) : List Byte :=
  let t := r.temp
  flagField r.settings.channelEnabled ++ byteField r.settings.staleLimit ++ numField 2 r.settings.lostLimit ++
    optField 5 (t.lastReceived.map fun x => Config.sampleKindCode x.1 :: timeField (now - x.2)) ++
    optField 6 (t.lastValue.map fun x => numField 2 x.1 ++ timeField (now - x.2)) ++ flagField t.underFlag ++
    flagField t.overFlag ++ optNum 2 t.tf ++ optNum 4 (t.lastTaken.map (now - ·)) ++ leftField now t.lostTimer ++
    optNum 2 (r.joint.bind Joint.peak)

/-- The line part of GET_HEAD (R167). -/
def linePart (now : Nat) (r : HeadRec) : List Byte :=
  byteField (takenCode r.line.clamp.taken) ++ byteField (takenCode r.line.flow.taken) ++
    byteField r.settings.clampReport.code ++ numField 2 r.settings.flowGrace ++ leftField now r.line.graceTimer

/-- The reply data of GET_HEAD (R193). -/
def headBytes (now : Nat) (r : HeadRec) : List Byte :=
  jobHeadPart r ++ heatPart now r ++ heatRecordPart r ++ tuningPart r ++ temperaturePart now r ++ linePart now r ++
    settingsBytes (headSettings r)

/-- A reading of the tuning part clears the ceiling-reached flag and sets the lock-held flag (R135, R136). -/
def HeadRec.flagsRead (r : HeadRec) : HeadRec :=
  { r with tuning := { r.tuning with ceilingReached := false, lockHeld := true } }

/-- GET_HEAD (R25, R137). -/
def reqGetHead (head : Nat) (s : State) : State × Answer :=
  withHead head (fun h s => (s.modHead h HeadRec.flagsRead, .accept false (headBytes s.now (s.head h)))) s

/-! ## GET_STAGE (R119) -/

/-- A segment's bytes in GET_STAGE (R119). -/
def segmentBytes (now : Nat) (timer : Option Nat) (x : Segment) : List Byte :=
  byteField x.head.num ++ byteField x.tap ++ numField 2 x.power ++ byteField x.lead ++ byteField x.duration ++
    flagField x.continuation ++ flagField x.cut ++ timeField (now - x.handover) ++ timeField (timer.getD now - now)

/-- A fault cause record's bytes in GET_STAGE (R119). -/
def causeBytes (c : CauseRec) : List Byte :=
  byteField c.cause.code ++ byteField c.tripCode ++ timeField c.time ++ flagField c.cleared

/-- The reply data of GET_STAGE (R119). -/
def State.stageBytes (s : State) (g : Stage) : List Byte :=
  let r := s.stage g
  byteField r.mode.code ++ leftField s.now r.settleTimer ++ flagField r.busReady ++ headField r.matrix ++
    optField 16 (r.segment.map (segmentBytes s.now r.completionTimer)) ++ optField 7 (r.fault.map causeBytes) ++
    numField 2 r.powerLimit ++ byteField r.gap ++ numField 2 r.settleTime ++
    listField (fun h => byteField h.num ++ byteField (s.head h).mode.code) (s.members g)

/-- GET_STAGE (R119). -/
def reqGetStage (stage : Nat) (s : State) : State × Answer :=
  withStage stage (fun g s => (s, .accept false (s.stageBytes g))) s

/-! ## GET_FRAME (R98, R99) -/

/-- The six bytes of a slot, as LOAD_FRAME carries it, with the fields its rule does not use 0 (R191, R193). -/
def slotBytes (x : Slot) : List Byte :=
  let row (a b fb m : Nat) : List Byte :=
    byteField x.length ++ byteField x.rule.name.code ++ byteField a ++ byteField b ++ byteField fb ++ byteField m
  match x.rule with
  | .passive => row 0 0 0 0
  | .fixed h fb => row h.num 0 fb.code 0
  | .prefer h g => row h.num g.num 0 0
  | .rotate => row 0 0 0 0
  | .chain h fb => row h.num 0 fb.code 0
  | .split h g m => row h.num g.num 0 m

/-- A frame with its pass time, or its absence (R98). -/
def frameField : Option (List Slot) → List Byte
  | some f => byteField 1 ++ listField slotBytes f ++ numField 2 (passTime f)
  | none => byteField 0 ++ byteField 0 ++ bytesBE 2 0

/-- The last slot decision record's bytes (R99). The wait and the window are times whose range is not stated, of four
bytes each (R193); R109 states the range of the duration. -/
def slotDecisionBytes (d : SlotDecision) : List Byte :=
  byteField d.slot ++ byteField d.part.code ++ timeField d.wait ++ byteField d.rule.code ++ headField d.recipient ++
    byteField d.outcome.code ++ optByte (d.sent.map fun x => flagCode x.gap) ++ optNum 4 (d.sent.map SentRec.window) ++
    optByte (d.sent.map SentRec.duration) ++ optNum 2 (d.sent.map SentRec.power) ++
    optByte (d.sent.map fun x => flagCode x.continuation)

/-- The last-served record's bytes: its head and the time left to its end time (R98). DESIGN CHOICE (log entry 39): the
time left of a record whose end time has passed (R81) is a free value. -/
def lastServedBytes (now : Nat) (x : Head × Nat) : List Byte :=
  byteField x.1.num ++
    if now ≤ x.2 then timeField (x.2 - now) else bytesBE 4 (Config.pastTimeLeft (now - x.2))

/-- The reply data of GET_FRAME (R98). -/
def State.frameReply (s : State) (g : Stage) : List Byte :=
  let r := s.stage g
  frameField r.active ++ frameField r.pendingFrame ++ flagField r.running.isSome ++
    optByte (r.running.map Running.slot) ++ optByte (r.running.map fun x => x.part.code) ++
    optNum 4 (r.running.map fun x => s.now - x.partStart) ++ optNum 4 (r.running.map fun x => x.partEnd - s.now) ++
    flagField r.deferred ++ headField r.pointer ++
    optField 5 (r.lastServed.map (lastServedBytes s.now)) ++ headField r.matrix ++
    headField (r.segment.map Segment.head) ++ optField 23 (r.lastDecision.map slotDecisionBytes)

/-- GET_FRAME (R98). -/
def reqGetFrame (stage : Nat) (s : State) : State × Answer :=
  withStage stage (fun g s => (s, .accept false (s.frameReply g))) s

/-! ## GET_STORE (R183) -/

/-- The operation in flight with its entry or bank, the time left to its completion (the kept time of a suspended erase)
and, while an erase is suspended, the time left to the end of the suspension (R183). -/
def operationBytes (now : Nat) (t : StoreRec) (op : StoreOp) : List Byte :=
  (match op with
    | .program e _ => byteField 0x01 ++ byteField e.val
    | .erase b => byteField 0x02 ++ byteField b.val) ++
    timeField (match t.remaining with
      | some left => left
      | none => t.opTimer.getD now - now) ++ leftField now t.suspendTimer

/-- The code of an entry's state as GET_STORE shows it (R183). -/
def StoreRec.shownCode (t : StoreRec) (e : Fin 64) : Nat :=
  if t.erases e.val then erasingCode else t.entries[e].code

/-- The reply data of GET_STORE (R183). DESIGN CHOICE (log entry 40): the four bank-writable flags and the 64 entry states
stand without a count byte, as fields of a fixed number; R193 does not say whether they are lists with a count. -/
def State.storeBytes (s : State) : List Byte :=
  let t := s.store
  byteField t.mode.code ++ optField 11 (t.op.map (operationBytes s.now t)) ++ flagField t.programError ++
    flagField t.eraseError ++ flagField t.workingEnable ++ flagField t.masterEnable ++
    byteField (takenCode s.cell.key.taken) ++ ([0, 1, 2, 3].flatMap fun b => flagField (s.writable b)) ++
    ((List.finRange 64).flatMap fun e => byteField (t.shownCode e)) ++
    listField (fun f : Fetch => byteField f.head.num ++ byteField f.entry) t.waiting

/-- GET_STORE (R183). -/
def reqGetStore (s : State) : State × Answer := (s, .accept false s.storeBytes)

/-! ## FETCH_RESULTS and FETCH_EVENTS (R171, R174) -/

/-- The most results and the most events one fetch removes (R171, R174). -/
def resultsPerFetch : Nat := 4
def eventsPerFetch : Nat := 8

/-- The oldest results have been removed (R171). -/
def ReportRec.dropResults (r : ReportRec) : ReportRec :=
  ReportRec.withAttn { r with results := r.results.drop resultsPerFetch }

/-- The oldest events have been removed and the events-lost count cleared (R174). -/
def ReportRec.dropEvents (r : ReportRec) : ReportRec :=
  ReportRec.withAttn { r with events := r.events.drop eventsPerFetch, eventsLost := 0 }

/-- FETCH_RESULTS (R171). With none held nothing is removed and nothing re-tried. -/
def reqFetchResults (s : State) : State × Answer :=
  (if s.report.results.isEmpty then s else State.retry { s with report := s.report.dropResults },
    .accept false (listField resultBytes (s.report.results.take resultsPerFetch)))

/-- FETCH_EVENTS (R174). -/
def reqFetchEvents (s : State) : State × Answer :=
  let taken := s.report.events.take eventsPerFetch
  ({ s with report := s.report.dropEvents },
    .accept false (byteField taken.length ++ byteField s.report.eventsLost ++ taken.flatMap eventBytes))

/-! ## The commands -/

/-- IDENTIFY. -/
def execIdentify (time : Nat) (tag : Byte) (s : State) : Host.Outcome State Fault Refusal :=
  atTime time s (respond .identify tag false reqIdentify)

/-- GET_STATUS. -/
def execGetStatus (time : Nat) (tag : Byte) (s : State) : Host.Outcome State Fault Refusal :=
  atTime time s (respond .getStatus tag false reqGetStatus)

/-- GET_HEAD. -/
def execGetHead (time : Nat) (tag : Byte) (head : Nat) (s : State) : Host.Outcome State Fault Refusal :=
  atTime time s (respond .getHead tag false (reqGetHead head))

/-- GET_STAGE. -/
def execGetStage (time : Nat) (tag : Byte) (stage : Nat) (s : State) : Host.Outcome State Fault Refusal :=
  atTime time s (respond .getStage tag false (reqGetStage stage))

/-- GET_FRAME. -/
def execGetFrame (time : Nat) (tag : Byte) (stage : Nat) (s : State) : Host.Outcome State Fault Refusal :=
  atTime time s (respond .getFrame tag false (reqGetFrame stage))

/-- GET_STORE. -/
def execGetStore (time : Nat) (tag : Byte) (s : State) : Host.Outcome State Fault Refusal :=
  atTime time s (respond .getStore tag false reqGetStore)

/-- FETCH_RESULTS. -/
def execFetchResults (time : Nat) (tag : Byte) (s : State) : Host.Outcome State Fault Refusal :=
  atTime time s (respond .fetchResults tag false reqFetchResults)

/-- FETCH_EVENTS. -/
def execFetchEvents (time : Nat) (tag : Byte) (s : State) : Host.Outcome State Fault Refusal :=
  atTime time s (respond .fetchEvents tag false reqFetchEvents)

end Sys2Proof.Machine
end

