-- ==== Sys2Proof/Machine/Reset.lean ====
section
/-! DEFINITION. The resets (R195): the power-on reset, the warm reset of the RESET line and of a RESET request, the
release of the line, and what each leaves in every block (R26, R74, R100, R121, R138, R141, R151, R170, R173, R185). -/

namespace Sys2Proof.Machine

/-- The recipe store after a warm reset (R177, R185): an operation in flight runs on and is carried. -/
def StoreRec.warmReset (t : StoreRec) : StoreRec :=
  { t with carried := t.op.isSome, programError := false, eraseError := false, workingEnable := false,
           masterEnable := false, waiting := [] }

/-- The entries a power-on reset leaves: an operation in flight is lost and spoils what it touched (R185). -/
def StoreRec.spoiledEntries (t : StoreRec) : Vector Entry 64 :=
  match t.op with
  | some (.program e _) => (t.setEntry e .spoiled).entries
  | some (.erase b) => (t.setBank b .spoiled).entries
  | none => t.entries

/-- The recipe store after a power-on reset (R185). -/
def StoreRec.powerOnReset (t : StoreRec) : StoreRec := StoreRec.reset t.spoiledEntries

/-- The filter timers after a reset: 2 ms for every input (R153); none runs while the RESET line holds the part. -/
def State.resetFilter (s : State) : Option Nat := if s.inReset then none else some (s.now + filterTime)

/-- Every block but the store after a reset of kind `kind`, with the strap pin and the store given. The lines' pins, the
clock, the orders already sent and the model's own fields stay (log entries 1, 16, 21, 26); a bus-off order goes to each
stage (R100). -/
def State.resetPart (s : State) (kind : ResetKind) (strap : Rate) (store : StoreRec) : State :=
  { s with
    link := LinkRec.reset kind strap,
    cell := CellRec.reset s.cell.estop.pin s.cell.motion.pin s.cell.key.pin s.resetFilter,
    heads := PerHead.make fun h =>
      HeadRec.reset h (s.head h).line.clamp.pin (s.head h).line.flow.pin s.resetFilter,
    stages := { s0 := StageRec.reset ((s.stage .s0).orders ++ [.busOff]),
                s1 := StageRec.reset ((s.stage .s1).orders ++ [.busOff]) },
    tracker := [],
    report := ReportRec.reset,
    store := store }

/-- A warm reset by the RESET line or by a RESET request (R195). -/
def State.warmReset (s : State) (kind : ResetKind) (strap : Rate) : State :=
  s.resetPart kind strap s.store.warmReset

/-- The filter timer of an input starts at its present level (R153). -/
def Input.start (x : Input) (t : Nat) : Input := { x with filter := some t }

/-- The part leaves reset: the filters of all line inputs start (R153, R195). -/
def State.leaveReset (s : State) : State :=
  let t := s.now + filterTime
  { s with
    inReset := false,
    cell := { s.cell with estop := s.cell.estop.start t, motion := s.cell.motion.start t, key := s.cell.key.start t },
    heads := PerHead.make fun h =>
      { s.head h with line := { (s.head h).line with clamp := (s.head h).line.clamp.start t,
                                                     flow := (s.head h).line.flow.start t } } }

/-- RESET: accepted with the mark byte alone (R195). The reset follows the reply. -/
def reqReset (s : State) : State × Answer := (s, .accept false [])

/-- RESET. -/
def execReset (time : Nat) (tag : Byte) (s : State) : Host.Outcome State Fault Refusal :=
  atTime time s (respond .reset tag false reqReset)

/-- RESET_LINE (R195): a warm reset, and the part stays in reset until the line is released. -/
def execResetLine (time : Nat) (strap : Rate) (s : State) : Host.Outcome State Fault Refusal :=
  atTime time s fun s => State.warmReset { s with inReset := true } .line strap

/-- RESET_LINE_RELEASED (R195). -/
def execResetLineReleased (time : Nat) (s : State) : Host.Outcome State Fault Refusal :=
  .next (if s.inReset then (s.advance time).leaveReset else s.advance time)

/-- POWER_ON_RESET (R185, R195). -/
def execPowerOnReset (time : Nat) (strap : Rate) (s : State) : Host.Outcome State Fault Refusal :=
  .next ((s.advance time).resetPart .powerOn strap s.store.powerOnReset)

end Sys2Proof.Machine
end

