-- ==== Sys2Proof/Machine/Link.lean ====
section
/-! DEFINITION. The cell link (spec/11): the receiver, the receive buffer, the structural checks and the fields of a
request (R190, R191, R192), and the transmitter. -/

namespace Sys2Proof.Machine

/-! ## Requests (R191) -/

/-- A request whose structure is sound: its kind with the fields its payload carries. -/
inductive Request where
  | identify
  | getStatus
  | reset
  | setCell (items : List Item)
  | setHead (head : Nat) (items : List Item)
  | setStage (stage : Nat) (items : List Item)
  | loadFrame (stage : Nat) (slots : List RawSlot)
  | submitJob (head : Nat) (job : RawJob)
  | cancelJob (head tag : Nat)
  | flushQueue (head : Nat)
  | startHeads (heads : Byte)
  | hold
  | resume
  | power (stage order : Nat)
  | clearFault (target number : Nat)
  | getHead (head : Nat)
  | getStage (stage : Nat)
  | getFrame (stage : Nat)
  | fetchResults
  | fetchEvents
  | readRecipe (entry : Nat)
  | programRecipe (entry : Nat) (record : List Byte)
  | eraseBank (bank : Nat)
  | getStore
  | clearStore
  | setProtect (working master : Nat)
deriving DecidableEq, Repr

/-- The items of a settings request, three bytes each (R191). -/
def parseItems : List Byte → Option (List Item)
  | [] => some []
  | c :: hi :: lo :: rest => (parseItems rest).map ({ code := c.toNat, value := word2 hi lo } :: ·)
  | _ => none

/-- Exactly `n` slots of six bytes (R191). -/
def parseSlots : Nat → List Byte → Option (List RawSlot)
  | 0, bs => if bs.isEmpty then some [] else none
  | n + 1, l :: r :: a :: b :: fb :: m :: rest =>
    (parseSlots n rest).map
      ({ length := l.toNat, rule := r.toNat, first := a.toNat, second := b.toNat, fallback := fb.toNat,
         split := m.toNat } :: ·)
  | _ + 1, _ => none

/-- The bounds of PROGRAM_RECIPE's payload (R192). -/
def programPayloadOk (n : Nat) : Bool := decide (16 ≤ n) && decide (n ≤ 112)

/-- The request a payload carries for its kind; none where its length is not the layout's (R190, R191). -/
def parsePayload : Kind → List Byte → Option Request
  | .identify, [] => some .identify
  | .getStatus, [] => some .getStatus
  | .reset, [] => some .reset
  | .setCell, bs => (parseItems bs).map .setCell
  | .setHead, h :: bs => (parseItems bs).map (.setHead h.toNat)
  | .setStage, g :: bs => (parseItems bs).map (.setStage g.toNat)
  | .loadFrame, g :: n :: bs => (parseSlots n.toNat bs).map (.loadFrame g.toNat)
  | .submitJob, [h, j1, j0, i1, i0, rec, mode, last, a1, a0, trim] =>
    some (.submitJob h.toNat
      { jobTag := word2 j1 j0, indexTag := word2 i1 i0, recipe := rec.toNat, startMode := mode.toNat,
        lastOfIndex := last.toNat, armTimeout := word2 a1 a0, trim := trim.toNat })
  | .cancelJob, [h, t1, t0] => some (.cancelJob h.toNat (word2 t1 t0))
  | .flushQueue, [h] => some (.flushQueue h.toNat)
  | .startHeads, [set] => some (.startHeads set)
  | .hold, [] => some .hold
  | .resume, [] => some .resume
  | .power, [g, o] => some (.power g.toNat o.toNat)
  | .clearFault, [t, n] => some (.clearFault t.toNat n.toNat)
  | .getHead, [h] => some (.getHead h.toNat)
  | .getStage, [g] => some (.getStage g.toNat)
  | .getFrame, [g] => some (.getFrame g.toNat)
  | .fetchResults, [] => some .fetchResults
  | .fetchEvents, [] => some .fetchEvents
  | .readRecipe, [e] => some (.readRecipe e.toNat)
  | .programRecipe, e :: rec => if programPayloadOk (rec.length + 1) then some (.programRecipe e.toNat rec) else none
  | .eraseBank, [b] => some (.eraseBank b.toNat)
  | .getStore, [] => some .getStore
  | .clearStore, [] => some .clearStore
  | .setProtect, [w, m] => some (.setProtect w.toNat m.toNat)
  | _, _ => none

/-- POWER by its order byte (R191); the stage number is checked first, with the same reason. -/
def reqPower (stage order : Nat) (s : State) : State × Answer :=
  match order with
  | 0x00 => reqPowerOff stage s
  | 0x01 => reqPowerOn stage s
  | _ => (s, .refuse .badField)

/-- CLEAR_FAULT by its target (R191). The number of a device target is not judged. -/
def reqClearFault (target number : Nat) (s : State) : State × Answer :=
  match target with
  | 0x00 => reqClearFaultHead number s
  | 0x01 => reqClearFaultStage number s
  | 0x02 => reqClearFaultDevice s
  | _ => (s, .refuse .badField)

/-- The request is handed to the block that owns its matter (R189, the catalogue of R191). -/
def takeRequest (q : Request) (s : State) : State × Answer :=
  match q with
  | .identify => reqIdentify s
  | .getStatus => reqGetStatus s
  | .reset => reqReset s
  | .setCell items => reqSetCell items s
  | .setHead head items => reqSetHead head items s
  | .setStage stage items => reqSetStage stage items s
  | .loadFrame stage slots => reqLoadFrame stage slots s
  | .submitJob head job => reqSubmitJob head job s
  | .cancelJob head tag => reqCancelJob head tag s
  | .flushQueue head => reqFlushQueue head s
  | .startHeads heads => reqStartHeads heads s
  | .hold => reqHold s
  | .resume => reqResume s
  | .power stage order => reqPower stage order s
  | .clearFault target number => reqClearFault target number s
  | .getHead head => reqGetHead head s
  | .getStage stage => reqGetStage stage s
  | .getFrame stage => reqGetFrame stage s
  | .fetchResults => reqFetchResults s
  | .fetchEvents => reqFetchEvents s
  | .readRecipe entry => reqReadRecipe entry s
  | .programRecipe entry record => reqProgramRecipe entry record s
  | .eraseBank bank => reqEraseBank bank s
  | .getStore => reqGetStore s
  | .clearStore => reqClearStore s
  | .setProtect working master => reqSetProtect working master s

/-! ## The receive buffer (R188) -/

/-- The refusal of a frame by the link block itself (R190). -/
def State.refuseFrame (s : State) (f : LinkFrame) (r : Reason) : State :=
  s.pushReply ((Answer.refuse r).reply f.kind f.tag true false)

/-- The frame in processing is taken: the structural checks, and then its owner (R189, R190). -/
def State.takeFrame (s : State) (f : LinkFrame) : State :=
  match Kind.ofCode? f.kind.toNat with
  | none => s.refuseFrame f .unknownKind
  | some k =>
    match parsePayload k f.payload with
    | none => s.refuseFrame f .badLength
    | some q => respond k f.tag true (takeRequest q) s

/-- The frame becomes the frame in processing and is taken (R188). -/
def State.process (s : State) (f : LinkFrame) : State :=
  State.takeFrame { s with link := { s.link with processing := some f } } f

/-- A complete frame reaches the receive buffer (R188). -/
def State.acceptFrame (s : State) (f : LinkFrame) : State :=
  match s.link.processing, s.link.waiting with
  | none, _ => s.process f
  | some _, none => { s with link := { s.link with waiting := some f } }
  | some _, some _ => { s with link := { s.link with overruns := min (s.link.overruns + 1) maxWord } }

/-! ## The receiver (R187) -/

/-- The receiver hunts, and no gap timer runs. -/
def State.hunt (s : State) : State := { s with link := { s.link with receiver := .hunting, gapTimer := none } }

/-- The frame in progress is discarded and counted as a link error (R187). -/
def State.discardFrame (s : State) : State :=
  let s1 := s.hunt
  { s1 with link := { s1.link with linkErrors := min (s1.link.linkErrors + 1) maxWord } }

/-- The receiver is in a frame with the bytes collected, and the gap timer starts anew (R187). -/
def State.collect (s : State) (bytes : List Byte) : State :=
  { s with link := { s.link with receiver := .inFrame bytes, gapTimer := some (s.now + gapTime) } }

/-- What the bytes after the sync byte amount to (R187). -/
inductive Progress where
  | unfinished
  | damaged
  | complete (f : LinkFrame)
deriving DecidableEq, Repr

/-- The bytes after the sync byte are judged: the length byte, the end of the frame and its CRC (R186, R187). -/
def progressOf : List Byte → Progress
  | len :: kind :: tag :: rest =>
    if maxPayload < len.toNat then .damaged
    else if rest.length < len.toNat + 2 then .unfinished
    else if rest.drop len.toNat = bytesBE 2 (crc16 (len :: kind :: tag :: rest.take len.toNat)).toNat then
      .complete { kind := kind, tag := tag, payload := rest.take len.toNat }
    else .damaged
  | len :: _ => if maxPayload < len.toNat then .damaged else .unfinished
  | [] => .unfinished

/-- A byte is collected in a frame (R187). -/
def State.frameByte (s : State) (bytes : List Byte) : State :=
  match progressOf bytes with
  | .unfinished => s.collect bytes
  | .damaged => s.discardFrame
  | .complete f => s.hunt.acceptFrame f

/-- A byte arrives (R187). In HUNTING a byte with a missing stop bit starts no frame (log entry 4). -/
def State.byteArrives (s : State) (b : Byte) (stopBit : Bool) : State :=
  match s.link.receiver with
  | .hunting => if stopBit && b = syncByte then s.collect [] else s
  | .inFrame bytes => if stopBit then s.frameByte (bytes ++ [b]) else s.discardFrame

/-- A complete frame arrives (R188); one that carries more than 240 payload bytes is discarded by its length (R187). -/
def State.frameArrives (s : State) (f : LinkFrame) : State :=
  if f.payload.length ≤ maxPayload then s.hunt.acceptFrame f else s.discardFrame

/-! ## The transmitter (R188, R189, R195) -/

/-- The frame in processing leaves the buffer, and the waiting frame is taken (R188). -/
def State.nextFrame (s : State) : State :=
  match s.link.waiting with
  | some f => State.process { s with link := { s.link with waiting := none } } f
  | none => { s with link := { s.link with processing := none } }

/-- The last byte of the oldest reply has been sent (R188, R189). A RESET request's warm reset follows, and reads the
strap as it stands there, which is a free value (R186, R195; log entry 16). -/
def State.replyGone (s : State) : State :=
  match s.link.replies with
  | [] => s
  | r :: rest =>
    let s1 := { s with link := { s.link with replies := rest } }
    if r.resets then s1.chose.warmReset .request (Config.strapLevel s.choices)
    else if r.answersFrame then s1.nextFrame else s1

/-! ## The commands -/

/-- FRAME_RECEIVED (R188). -/
def execFrameReceived (time : Nat) (kind tag : Byte) (payload : List Byte) (s : State) :
    Host.Outcome State Fault Refusal :=
  atTime time s (·.frameArrives { kind := kind, tag := tag, payload := payload })

/-- GAP_TIMER_EXPIRY (R187). -/
def execGapTimerExpiry (s : State) : Host.Outcome State Fault Refusal := atExpiry s.link.gapTimer s State.discardFrame

/-- REPLY_SENT (R188, R195). -/
def execReplySent (time : Nat) (s : State) : Host.Outcome State Fault Refusal := atTime time s State.replyGone

/-- BYTE_RECEIVED (R187). -/
def execByteReceived (time : Nat) (byte : Byte) (stopBit : Bool) (s : State) : Host.Outcome State Fault Refusal :=
  atTime time s (·.byteArrives byte stopBit)

end Sys2Proof.Machine
end

