-- ==== Sys2Proof/Machine/Dispatch.lean ====
section
/-! DEFINITION. One arm per command: the command's effect on everything but the queue. -/

namespace Sys2Proof.Machine

def exec (i : Instr) (s : State) : Host.Outcome State Fault Refusal :=
  match i with
  | .identify time tag => Sys2Proof.Machine.execIdentify time tag s
  | .getStatus time tag => Sys2Proof.Machine.execGetStatus time tag s
  | .reset time tag => Sys2Proof.Machine.execReset time tag s
  | .setCell time tag items => Sys2Proof.Machine.execSetCell time tag items s
  | .setHead time tag head items => Sys2Proof.Machine.execSetHead time tag head items s
  | .setStage time tag stage items => Sys2Proof.Machine.execSetStage time tag stage items s
  | .loadFrame time tag stage slots => Sys2Proof.Machine.execLoadFrame time tag stage slots s
  | .submitJob time tag head job => Sys2Proof.Machine.execSubmitJob time tag head job s
  | .cancelJob time tag head jobTag => Sys2Proof.Machine.execCancelJob time tag head jobTag s
  | .flushQueue time tag head => Sys2Proof.Machine.execFlushQueue time tag head s
  | .startHeads time tag heads => Sys2Proof.Machine.execStartHeads time tag heads s
  | .hold time tag => Sys2Proof.Machine.execHold time tag s
  | .resume time tag => Sys2Proof.Machine.execResume time tag s
  | .powerOn time tag stage => Sys2Proof.Machine.execPowerOn time tag stage s
  | .powerOff time tag stage => Sys2Proof.Machine.execPowerOff time tag stage s
  | .clearFaultHead time tag head => Sys2Proof.Machine.execClearFaultHead time tag head s
  | .clearFaultStage time tag stage => Sys2Proof.Machine.execClearFaultStage time tag stage s
  | .clearFaultDevice time tag => Sys2Proof.Machine.execClearFaultDevice time tag s
  | .getHead time tag head => Sys2Proof.Machine.execGetHead time tag head s
  | .getStage time tag stage => Sys2Proof.Machine.execGetStage time tag stage s
  | .getFrame time tag stage => Sys2Proof.Machine.execGetFrame time tag stage s
  | .fetchResults time tag => Sys2Proof.Machine.execFetchResults time tag s
  | .fetchEvents time tag => Sys2Proof.Machine.execFetchEvents time tag s
  | .readRecipe time tag entry => Sys2Proof.Machine.execReadRecipe time tag entry s
  | .programRecipe time tag entry record => Sys2Proof.Machine.execProgramRecipe time tag entry record s
  | .eraseBank time tag bank => Sys2Proof.Machine.execEraseBank time tag bank s
  | .getStore time tag => Sys2Proof.Machine.execGetStore time tag s
  | .clearStore time tag => Sys2Proof.Machine.execClearStore time tag s
  | .setProtect time tag working master => Sys2Proof.Machine.execSetProtect time tag working master s
  | .frameReceived time kind tag payload => Sys2Proof.Machine.execFrameReceived time kind tag payload s
  | .gapTimerExpiry => Sys2Proof.Machine.execGapTimerExpiry s
  | .replySent time => Sys2Proof.Machine.execReplySent time s
  | .resetLine time strap => Sys2Proof.Machine.execResetLine time strap s
  | .powerOnReset time strap => Sys2Proof.Machine.execPowerOnReset time strap s
  | .busReport time stage intact ready => Sys2Proof.Machine.execBusReport time stage intact ready s
  | .segmentReport time stage intact report => Sys2Proof.Machine.execSegmentReport time stage intact report s
  | .tripReport time stage intact code => Sys2Proof.Machine.execTripReport time stage intact code s
  | .settleTimerExpiry stage => Sys2Proof.Machine.execSettleTimerExpiry stage s
  | .completionTimerExpiry stage => Sys2Proof.Machine.execCompletionTimerExpiry stage s
  | .slotTimerExpiry stage => Sys2Proof.Machine.execSlotTimerExpiry stage s
  | .splitTimerExpiry stage => Sys2Proof.Machine.execSplitTimerExpiry stage s
  | .armTimerExpiry head => Sys2Proof.Machine.execArmTimerExpiry head s
  | .durationTimerExpiry head => Sys2Proof.Machine.execDurationTimerExpiry head s
  | .timeLimitExpiry head => Sys2Proof.Machine.execTimeLimitExpiry head s
  | .pyrometerSample time head intact sample => Sys2Proof.Machine.execPyrometerSample time head intact sample s
  | .lostTimerExpiry head => Sys2Proof.Machine.execLostTimerExpiry head s
  | .lineInputChange time input level => Sys2Proof.Machine.execLineInputChange time input level s
  | .initialLevelTaken input => Sys2Proof.Machine.execInitialLevelTaken input s
  | .estopAsserted => Sys2Proof.Machine.execEstopAsserted s
  | .estopReleased => Sys2Proof.Machine.execEstopReleased s
  | .motionAsserted => Sys2Proof.Machine.execMotionAsserted s
  | .motionReleased => Sys2Proof.Machine.execMotionReleased s
  | .clampFallingEdge head => Sys2Proof.Machine.execClampFallingEdge head s
  | .clampRisingEdge head => Sys2Proof.Machine.execClampRisingEdge head s
  | .flowFallingEdge head => Sys2Proof.Machine.execFlowFallingEdge head s
  | .flowRisingEdge head => Sys2Proof.Machine.execFlowRisingEdge head s
  | .keyChange => Sys2Proof.Machine.execKeyChange s
  | .flowGraceTimerExpiry head => Sys2Proof.Machine.execFlowGraceTimerExpiry head s
  | .programComplete passed => Sys2Proof.Machine.execProgramComplete passed s
  | .eraseComplete passed => Sys2Proof.Machine.execEraseComplete passed s
  | .suspendTimerExpiry => Sys2Proof.Machine.execSuspendTimerExpiry s
  | .byteReceived time byte stopBit => Sys2Proof.Machine.execByteReceived time byte stopBit s
  | .resetLineReleased time => Sys2Proof.Machine.execResetLineReleased time s

end Sys2Proof.Machine
end

