-- ==== Sys2Proof/Safety.lean ====
section
/-! DEFINITION. What counts as a sound state of the part, in the terms claims use: the conditions the manual states of
every state, and the vocabulary of the statements (a request answered, the bytes of a frame fed one by one). -/

namespace Sys2Proof.Machine

/-! ## Conditions of a sound state -/

/-- Held results and active joints together never exceed 32 (R170). -/
def State.PlacesOk (s : State) : Prop := s.report.results.length + s.activeJoints ≤ 32

/-- ATTN is asserted exactly while a queue holds a record; at most 16 events are held and at most 255 counted as lost
(R173, R175). -/
def State.EventsOk (s : State) : Prop :=
  (s.report.attn = true ↔ s.report.results ≠ [] ∨ s.report.events ≠ []) ∧ s.report.events.length ≤ 16 ∧
    s.report.eventsLost ≤ 255

/-- A head in ARMED, TUNING, HEATING or STOPPING has an active joint, and no other head has one (R6); a STOPPING joint has
the cause recorded that told it to end (R16). -/
def State.JointsOk (s : State) : Prop :=
  ∀ h, ((s.head h).joint.isSome ↔ (s.head h).mode ∈ [HeadMode.armed, .tuning, .heating, .stopping]) ∧
    ((s.head h).mode = .stopping → ∀ j, (s.head h).joint = some j → j.cause.isSome)

/-- The tags of a head's queued jobs and of its active joint (R3). -/
def HeadRec.tags (r : HeadRec) : List Nat := r.queue.map Job.jobTag ++ (r.joint.map fun j => j.job.jobTag).toList

/-- At most 4 queued jobs on a head, no job tag twice among its queued and active jobs, and no job queued on a DISABLED
head (R3, R7). -/
def State.QueuesOk (s : State) : Prop :=
  ∀ h, (s.head h).queue.length ≤ 4 ∧ (s.head h).tags.Nodup ∧ ((s.head h).mode = .disabled → (s.head h).queue = [])

/-- E_J never exceeds 999,999 J, and the remainder stays below 1,000 W·ms (R67, R68). -/
def State.EnergyOk (s : State) : Prop :=
  ∀ h j, (s.head h).joint = some j → j.energy ≤ 999999 ∧ j.remainder < 1000

/-- Tf, where there is one, lies in 150 to 1,100 °C (R141, R142). -/
def State.TempOk (s : State) : Prop := ∀ h t, (s.head h).temp.tf = some t → 150 ≤ t ∧ t ≤ 1100

/-- A frame runs and a segment is in flight only on a READY stage, and the completion timer runs exactly while a segment
is in flight (R74, R106, R108, R110). -/
def State.SegmentsOk (s : State) : Prop :=
  ∀ g, ((s.stage g).running.isSome → (s.stage g).mode = .ready) ∧
    ((s.stage g).segment.isSome → (s.stage g).mode = .ready) ∧
    ((s.stage g).completionTimer.isSome ↔ (s.stage g).segment.isSome)

/-- Every head a frame of the stage names is a member of the stage. -/
def State.frameMembers (s : State) (g : Stage) (f : Option (List Slot)) : Prop :=
  ∀ slots, f = some slots → ∀ x ∈ slots, ∀ h ∈ x.rule.heads, s.stageOf h = g

/-- The frames of a stage name its members alone (R93, R96), and the segment in flight on a stage is for a member with a
started joint (R15, R75). -/
def State.FlightOk (s : State) : Prop :=
  ∀ g, s.frameMembers g (s.stage g).active ∧ s.frameMembers g (s.stage g).pendingFrame ∧
    ∀ x, (s.stage g).segment = some x →
      s.stageOf x.head = g ∧ (s.head x.head).mode ∈ [HeadMode.tuning, .heating, .stopping]

/-- The device is INTERLOCKED exactly while an interlock cause stands (R151). -/
def State.CausesOk (s : State) : Prop :=
  s.cell.mode = .interlocked ↔ s.cell.causeEstop = true ∨ s.cell.causeMotion = true

/-- A frame waits only behind a frame in processing, and both counts stay at 65,535 (R187, R188). -/
def State.LinkOk (s : State) : Prop :=
  (s.link.waiting.isSome → s.link.processing.isSome) ∧ s.link.linkErrors ≤ 65535 ∧ s.link.overruns ≤ 65535

/-- The consecutive-fault count is at most 8 and the drift count at most 255 (R19, R133). -/
def State.CountsOk (s : State) : Prop := ∀ h, (s.head h).faultCount ≤ 8 ∧ (s.head h).tuning.driftCount ≤ 255

/-- Jobs with the index tag that are queued or active on the head. -/
def HeadRec.jobsOf (r : HeadRec) (tag : Nat) : Nat :=
  (r.queue.filter fun j => j.indexTag = tag).length + (r.joint.toList.filter fun j => j.job.indexTag = tag).length

/-- Jobs with the index tag that are queued or active on any head (R22). -/
def State.jobsOf (s : State) (tag : Nat) : Nat := (Head.all.map fun h => (s.head h).jobsOf tag).sum

/-- The outstanding count of an index, 0 where no entry is open (R22). -/
def State.outstanding (s : State) (tag : Nat) : Nat :=
  match trackerFind s.tracker tag with
  | some e => e.outstanding
  | none => 0

/-- For each index the outstanding count equals the number of jobs with that tag that are queued or active, and at most 4
indexes are open (R22). -/
def State.IndexOk (s : State) : Prop := (∀ tag, s.outstanding tag = s.jobsOf tag) ∧ s.tracker.length ≤ 4

/-- A state that meets every condition above. -/
def State.Sound (s : State) : Prop :=
  s.PlacesOk ∧ s.EventsOk ∧ s.JointsOk ∧ s.QueuesOk ∧ s.EnergyOk ∧ s.TempOk ∧ s.SegmentsOk ∧ s.FlightOk ∧
    s.CausesOk ∧ s.LinkOk ∧ s.CountsOk ∧ s.IndexOk

/-- The order delivers power (R109). -/
def StageOrder.isHeat : StageOrder → Bool
  | .heat _ _ _ _ _ _ => true
  | .busOn => false
  | .busOff => false
  | .cut => false

/-! ## Requests and replies -/

/-- The joint once its current phase has been closed at `now` (R40): its timers are stopped, and the newest entry of its
phase list holds the phase's duration and energy. -/
def Joint.closedAt (j : Joint) (now : Nat) : Joint :=
  { j with durationTimer := none, limitTimer := none,
           phaseList := closeLast (now - j.phaseEntry.getD now) (j.energy - j.entryEnergy) j.phaseList }

/-- The `m` phases after phase `n` are RAMP phases whose exit holds at the head's Tf, so that each ends at its entry
(R36). -/
def Recipe.passes (r : Recipe) (tf : Option Nat) (n m : Nat) : Prop :=
  ∀ k, k < m → ∃ rate f t, r.phases[n + k]? = some (.ramp rate f) ∧ tf = some t ∧ f.tEnd ≤ t + r.exitBand

/-- The phase does not end at its entry: it is no RAMP phase, or the head has no Tf, or its exit does not hold (R36). -/
def Phase.stays (p : Phase) (tf : Option Nat) (band : Nat) : Prop :=
  ∀ rate f t, p = .ramp rate f → tf = some t → t + band < f.tEnd

/-- The joint once the `m` phases after phase `n` have been entered and left at `now`, each with duration and energy 0
(R36). -/
def Joint.passed (j : Joint) (now : Nat) (tf : Option Nat) (n m : Nat) : Joint :=
  if m = 0 then j
  else { j with phase := some (n + m), phaseEntry := some now, entryEnergy := j.energy, exitPending := false,
                durationTimer := none, limitTimer := none, tEntry := tf,
                phaseList := j.phaseList ++ (List.range m).map fun k =>
                  { number := n + k + 1, duration := some 0, energy := some 0 } }

/-- The joint once phase number `n` has been entered at `now` (R35, R36). -/
def Joint.entered (j : Joint) (now : Nat) (tf : Option Nat) (n : Nat) (p : Phase) : Joint :=
  { j with phase := some n, phaseEntry := some now, entryEnergy := j.energy, exitPending := false,
           phaseList := j.phaseList ++ [{ number := n, duration := none, energy := none }],
           durationTimer := match p with
             | .soak (.time d) _ => some (now + d)
             | .dwell d => some (now + d)
             | _ => none,
           limitTimer := match p with
             | .ramp _ f => some (now + f.timeLimit)
             | .soak _ f => some (now + f.timeLimit)
             | .dwell _ => none,
           tEntry := match p, tf with
             | .ramp _ _, some t => some t
             | _, _ => j.tEntry }

/-- A joint behind phase `n` of its recipe moves on to `k` at `now` (R35, R36, R40, R47): it passes through phases of no
length, and then a phase is entered, or the recipe has ended with the outcome raised. -/
def Joint.movesOn (j : Joint) (r : Recipe) (now : Nat) (tf : Option Nat) (n : Nat) (k : Joint)
    (o : Option JointOutcome) : Prop :=
  ∃ m, r.passes tf n m ∧
    ((∃ p, r.phases[n + m]? = some p ∧ p.stays tf r.exitBand ∧
        k = (j.passed now tf n m).entered now tf (n + m + 1) p ∧ o = none) ∨
      (r.phases.length ≤ n + m ∧ k = j.passed now tf n m ∧
        o = some (if j.minEnergy ≤ j.energy then .done else .lowEnergy)))

/-- What follows the work of a segment report on stage `g`: the trip mark faults the stage with cause TRIP and code 0
(R112); without it a decision deferred to the report is made (R91). -/
def State.afterReport (s : State) (g : Stage) (trip deferred : Bool) : State :=
  if trip then s.enterFault g .trip 0
  else if deferred then (s.setStage g { s.stage g with deferred := false }).decideSlot g
  else s

/-- The first live slot of a frame is `x`, slot number `n` (R73). -/
def firstLive (frame : List Slot) (n : Nat) (x : Slot) : Prop :=
  1 ≤ n ∧ frame[n - 1]? = some x ∧ x.length ≠ 0 ∧ ∀ k y, k + 1 < n → frame[k]? = some y → y.length = 0

/-- The accept reply of a request taken by its row: `kind` is the reply's kind byte, and the mark byte is 0x00 (R189). -/
def okReply (kind tag : Byte) (data : List Byte) : Reply :=
  { kind := kind, tag := tag, payload := 0x00 :: data, answersFrame := false, resets := false }

/-- The accept reply of a request with a clamped or rounded value: the mark byte is 0x01 (R189). -/
def markedReply (kind tag : Byte) (data : List Byte) : Reply :=
  { kind := kind, tag := tag, payload := 0x01 :: data, answersFrame := false, resets := false }

/-- The refusal reply: kind 0x7F, and the request's kind with the reason code (R189, R190). -/
def refusalReply (kind tag reason : Byte) : Reply :=
  { kind := 0x7F, tag := tag, payload := [kind, reason], answersFrame := false, resets := false }

/-- The state with a request taken at `time` and answered by `r`, and nothing else changed. -/
def State.answered (s : State) (time : Nat) (r : Reply) : State := (s.advance time).pushReply r

/-- The time, the tag and the kind code of a request row (R191); no other row has them. -/
def requestOf : Instr → Option (Nat × Byte × Byte)
  | .identify time tag => some (time, tag, 0x01)
  | .getStatus time tag => some (time, tag, 0x02)
  | .reset time tag => some (time, tag, 0x03)
  | .setCell time tag _ => some (time, tag, 0x04)
  | .setHead time tag _ _ => some (time, tag, 0x05)
  | .setStage time tag _ _ => some (time, tag, 0x06)
  | .loadFrame time tag _ _ => some (time, tag, 0x07)
  | .submitJob time tag _ _ => some (time, tag, 0x08)
  | .cancelJob time tag _ _ => some (time, tag, 0x09)
  | .flushQueue time tag _ => some (time, tag, 0x0A)
  | .startHeads time tag _ => some (time, tag, 0x0B)
  | .hold time tag => some (time, tag, 0x0C)
  | .resume time tag => some (time, tag, 0x0D)
  | .powerOn time tag _ => some (time, tag, 0x0E)
  | .powerOff time tag _ => some (time, tag, 0x0E)
  | .clearFaultHead time tag _ => some (time, tag, 0x0F)
  | .clearFaultStage time tag _ => some (time, tag, 0x0F)
  | .clearFaultDevice time tag => some (time, tag, 0x0F)
  | .getHead time tag _ => some (time, tag, 0x10)
  | .getStage time tag _ => some (time, tag, 0x11)
  | .getFrame time tag _ => some (time, tag, 0x12)
  | .fetchResults time tag => some (time, tag, 0x13)
  | .fetchEvents time tag => some (time, tag, 0x14)
  | .readRecipe time tag _ => some (time, tag, 0x15)
  | .programRecipe time tag _ _ => some (time, tag, 0x16)
  | .eraseBank time tag _ => some (time, tag, 0x17)
  | .getStore time tag => some (time, tag, 0x18)
  | .clearStore time tag => some (time, tag, 0x19)
  | .setProtect time tag _ _ => some (time, tag, 0x1A)
  | _ => none

/-- Bytes arrive one after the other at `time`, each with its stop bit (R187). -/
def feed (time : Nat) : List Byte → State → Host.Outcome State Fault Refusal
  | [], s => .next s
  | b :: bs, s =>
    match exec (.byteReceived time b true) s with
    | .next t => feed time bs t
    | .fault r => .fault r
    | .refused r => .refused r

end Sys2Proof.Machine
end

