-- ==== Sys2Proof/Certificates/Slice0/Obligations.lean ====
section
/-! DEFINITION. The statements about the model, for the provers. Each is named for what it states; its docstring says it
in words. OBLIGATIONS.json gives the rules of spec/ each rests on. -/

open Sys2Proof Sys2Proof.Machine

/-- For every command c, every rest of a queue and every state s whose queue is c followed by that rest, one step of s
is exec of c on s with the queue holding the rest; a state with an empty queue steps to itself. The queue and the
idle step are the model's own (log entry 5); that a command is one whole and indivisible step is spec/95. -/
def Obligations.StepRunsFrontCommand : Prop :=
  (∀ (c : Instr) (rest : List Instr) (s : State), s.pending = c :: rest →
    step s = exec c { s with pending := rest }) ∧
  ∀ s : State, s.pending = [] → step s = .next s

/-- Every command on every state answers a next state; the queue of waiting commands is unchanged, the clock does not
run back, and the number of free choices made does not fall. The queue, which no command and no reset touches, is
the model's own (log entry 5), as are the clock and the choice counter (log entries 1, 26). -/
def Obligations.CommandsCompleteAndKeepQueue : Prop :=
  ∀ (c : Instr) (s : State), ∃ t, exec c s = .next t ∧ t.pending = s.pending ∧ s.now ≤ t.now ∧
    s.choices ≤ t.choices

/-- State.reset meets all conditions of State.Sound: result places, event queue and ATTN, joints by head state, queues
and tags, energy and temperature ranges, segments only on READY stages and for started members, interlock causes,
receive buffer, counts, and the index tracker. -/
def Obligations.ResetMeetsEveryCondition : Prop :=
  State.reset.Sound

/-- From a state in which the results held plus the active joints of all heads are at most 32, every step leaves them at
most 32. Stated for every state that meets the condition, reached or not. -/
def Obligations.ResultPlacesKept : Prop :=
  ∀ s t : State, s.PlacesOk → step s = .next t → t.PlacesOk

/-- From a state in which ATTN is asserted exactly while the result queue or the event queue holds a record, at most 16
events are held and the lost count is at most 255, every step leaves it so. Stated for every state that meets the
condition, reached or not. -/
def Obligations.EventQueueAndAttnKept : Prop :=
  ∀ s t : State, s.EventsOk → step s = .next t → t.EventsOk

/-- From a state in which exactly the heads in ARMED, TUNING, HEATING and STOPPING have an active joint, and every
STOPPING joint has a recorded cause, every step leaves it so. Stated for every state that meets the condition,
reached or not. -/
def Obligations.JointMatchesHeadState : Prop :=
  ∀ s t : State, s.JointsOk → step s = .next t → t.JointsOk

/-- From a state in which each head has at most 4 queued jobs, no job tag appears twice among a head's queued and active
jobs, and a DISABLED head has no queued job, every step leaves it so. Stated for every state that meets the
condition, reached or not. -/
def Obligations.QueuesAndTagsKept : Prop :=
  ∀ s t : State, s.QueuesOk → step s = .next t → t.QueuesOk

/-- From a state in which every joint's energy is at most 999,999 J with a remainder below 1,000 W·ms and every Tf
present lies in 150 to 1,100 °C, every step leaves it so. Stated for every state that meets the condition, reached
or not. -/
def Obligations.EnergyAndTfStayInRange : Prop :=
  ∀ s t : State, (s.EnergyOk ∧ s.TempOk) → step s = .next t → (t.EnergyOk ∧ t.TempOk)

/-- From a state in which a frame runs and a segment is in flight only on READY stages, a completion timer runs exactly
while a segment is in flight, the frames of a stage name its members alone, and a segment in flight is for a member
of its stage in TUNING, HEATING or STOPPING, every step leaves it so. Stated for every state that meets the
condition, reached or not. -/
def Obligations.SegmentOnlyOnReadyStage : Prop :=
  ∀ s t : State, (s.SegmentsOk ∧ s.FlightOk) → step s = .next t → (t.SegmentsOk ∧ t.FlightOk)

/-- From a state in which the device mode is INTERLOCKED exactly when ESTOP or MOTION stands among the interlock causes,
every step leaves it so. Stated for every state that meets the condition, reached or not. -/
def Obligations.CausesMatchDeviceMode : Prop :=
  ∀ s t : State, s.CausesOk → step s = .next t → t.CausesOk

/-- From a state in which a frame waits only behind a frame in processing, the link error and overrun counts are at most
65,535, every fault count is at most 8 and every drift count at most 255, every step leaves it so. Stated for every
state that meets the condition, reached or not. -/
def Obligations.BufferAndCountsKept : Prop :=
  ∀ s t : State, (s.LinkOk ∧ s.CountsOk) → step s = .next t → (t.LinkOk ∧ t.CountsOk)

/-- From a state in which, for every index tag, the outstanding count of its tracker entry (0 where there is none)
equals the number of jobs with that tag queued or active on any head, at most 4 indexes are open, and joints match
head states, every step leaves it so. Stated for every state that meets the condition, reached or not. -/
def Obligations.OutstandingCountsJobs : Prop :=
  ∀ s t : State, (s.IndexOk ∧ s.JointsOk) → step s = .next t → (t.IndexOk ∧ t.JointsOk)

/-- From every state whose device mode is HOLD or INTERLOCKED, every step only adds orders to each stage link, and none
of the added orders is a heat order. (The transcript of the orders is the model's own, log entry 21.) -/
def Obligations.NoHeatOrderOutsideRun : Prop :=
  ∀ (s t : State) (g : Stage), s.cell.mode ≠ .run → step s = .next t →
    ∃ sent, (t.stage g).orders = (s.stage g).orders ++ sent ∧ ∀ o ∈ sent, o.isHeat = false

/-- For each of the 29 request rows on a part not held in reset, exec answers a next state whose transmitter holds one
more reply, carrying the request's tag. It is an accept (the request's kind plus 0x80, first payload byte the mark
0x00 or 0x01) or a refusal (kind 0x7F, payload the request's kind and a reason); after a refusal nothing but the
clock and the transmitter has changed. -/
def Obligations.RequestsAnsweredOnce : Prop :=
  ∀ (c : Instr) (time : Nat) (tag kind : Byte) (s : State), requestOf c = some (time, tag, kind) → s.inReset = false →
    ∃ t r, exec c s = .next t ∧ t.link.replies = s.link.replies ++ [r] ∧ r.tag = tag ∧
      ((r.kind = kind + 0x80 ∧ (r.payload.head? = some 0x00 ∨ r.payload.head? = some 0x01)) ∨
        (r.kind = 0x7F ∧ (∃ reason, r.payload = [kind, reason]) ∧ t = s.answered time r))

/-- While the RESET line is held, every command other than LINE_INPUT_CHANGE, POWER_ON_RESET, RESET_LINE_RELEASED,
PROGRAM_COMPLETE, ERASE_COMPLETE and SUSPEND_TIMER_EXPIRY changes nothing but the clock. Which commands still act is
the model's inference from R195 and R185 (log entry 17). -/
def Obligations.HeldInResetOnlyClockMoves : Prop :=
  ∀ (c : Instr) (s : State), s.inReset = true → (∀ t i l, c ≠ .lineInputChange t i l) →
    (∀ t r, c ≠ .powerOnReset t r) → (∀ t, c ≠ .resetLineReleased t) → (∀ b, c ≠ .programComplete b) →
    (∀ b, c ≠ .eraseComplete b) → c ≠ .suspendTimerExpiry →
    ∃ n, s.now ≤ n ∧ exec c s = .next { s with now := n }

/-- For every timer of the part, the expiry command changes nothing while that timer is stopped; a take of a line input
changes nothing while the input's filter timer is stopped. That a command of the table can meet a stopped timer at
all is the model's (log entry 2). -/
def Obligations.StoppedTimersDoNothing : Prop :=
  ∀ (s : State) (g : Stage) (h : Head) (i : LineInput) (passed : Bool),
    ((s.stage g).settleTimer = none → exec (.settleTimerExpiry g) s = .next s) ∧
    ((s.stage g).completionTimer = none → exec (.completionTimerExpiry g) s = .next s) ∧
    ((s.stage g).running = none →
      exec (.slotTimerExpiry g) s = .next s ∧ exec (.splitTimerExpiry g) s = .next s) ∧
    ((∀ run, (s.stage g).running = some run → run.splitTimer = none) → exec (.splitTimerExpiry g) s = .next s) ∧
    ((∀ j, (s.head h).joint = some j → j.armTimer = none) → exec (.armTimerExpiry h) s = .next s) ∧
    ((∀ j, (s.head h).joint = some j → j.durationTimer = none) → exec (.durationTimerExpiry h) s = .next s) ∧
    ((∀ j, (s.head h).joint = some j → j.limitTimer = none) → exec (.timeLimitExpiry h) s = .next s) ∧
    ((s.head h).temp.lostTimer = none → exec (.lostTimerExpiry h) s = .next s) ∧
    ((s.head h).line.graceTimer = none → exec (.flowGraceTimerExpiry h) s = .next s) ∧
    (s.link.gapTimer = none → exec .gapTimerExpiry s = .next s) ∧
    (s.store.opTimer = none → exec (.programComplete passed) s = .next s ∧ exec (.eraseComplete passed) s = .next s) ∧
    (s.store.suspendTimer = none → exec .suspendTimerExpiry s = .next s) ∧
    ((s.input i).filter = none → exec (.initialLevelTaken i) s = .next s) ∧
    (s.cell.estop.filter = none → exec .estopAsserted s = .next s ∧ exec .estopReleased s = .next s) ∧
    (s.cell.motion.filter = none → exec .motionAsserted s = .next s ∧ exec .motionReleased s = .next s) ∧
    (s.cell.key.filter = none → exec .keyChange s = .next s) ∧
    ((s.head h).line.clamp.filter = none →
      exec (.clampFallingEdge h) s = .next s ∧ exec (.clampRisingEdge h) s = .next s) ∧
    ((s.head h).line.flow.filter = none →
      exec (.flowFallingEdge h) s = .next s ∧ exec (.flowRisingEdge h) s = .next s)

/-- A recipe record is valid exactly when it meets every range and relation of R29 and R30: 1 to 6 phases with a RAMP or
SOAK phase among them, filter depth 0 to 3, overtemperature ceiling 200 to 1,100 °C, both energies at most 999,999
J, the minimum not above an energy ceiling that is not 0, R_min not above R_max, exit band at most 20 °C; in RAMP
and SOAK phases T_end at least 150 °C and below the overtemperature ceiling, Kp at most 200, P_base and P_max at
most 15,000 W, P_min not above P_max, time limit 100 to 30,000 ms; R 1 to 500 °C/s; a TIME duration 1 to 30,000 ms
and not above the time limit; an ENERGY threshold 1 to 999,999 J; a DWELL duration 1 to 30,000 ms. The record's
bytes are those of section 11.4. Reading the bytes that write a valid record (with R_max in its two-byte field)
gives it back, and with the entry byte they are 16 to 112 bytes; bytes that are read as a record are the bytes that
write it, so that an unknown phase or exit kind and a wrong phase count are read as none. -/
def Obligations.RecipeRecordRoundTrip : Prop :=
  (∀ r : Recipe,
    let heat (f : HeatFields) : Prop :=
      150 ≤ f.tEnd ∧ f.tEnd < r.overtempCeiling ∧ f.kp ≤ 200 ∧ f.pBase ≤ 15000 ∧ f.pMax ≤ 15000 ∧ f.pMin ≤ f.pMax ∧
        100 ≤ f.timeLimit ∧ f.timeLimit ≤ 30000
    let passes (p : Phase) : Prop := match p with
      | .ramp rate f => heat f ∧ 1 ≤ rate ∧ rate ≤ 500
      | .soak (.time d) f => heat f ∧ 1 ≤ d ∧ d ≤ 30000 ∧ d ≤ f.timeLimit
      | .soak (.energy e) f => heat f ∧ 1 ≤ e ∧ e ≤ 999999
      | .dwell d => 1 ≤ d ∧ d ≤ 30000
    (r.valid = true ↔
      1 ≤ r.phases.length ∧ r.phases.length ≤ 6 ∧ r.filterDepth ≤ 3 ∧ 200 ≤ r.overtempCeiling ∧
        r.overtempCeiling ≤ 1100 ∧ r.energyCeiling ≤ 999999 ∧ r.minEnergy ≤ 999999 ∧
        (r.energyCeiling ≠ 0 → r.minEnergy ≤ r.energyCeiling) ∧ r.rMin ≤ r.rMax ∧ r.exitBand ≤ 20 ∧
        (∃ p ∈ r.phases, ∀ d, p ≠ .dwell d) ∧ ∀ p ∈ r.phases, passes p)) ∧
  (∀ r : Recipe,
    let b (v : Nat) : Byte := BitVec.ofNat 8 v
    let two (v : Nat) : List Byte := [b (v / 256), b v]
    let three (v : Nat) : List Byte := b (v / 65536) :: two v
    let phase (p : Phase) : List Byte := match p with
      | .ramp rate f => [0x01] ++ two f.tEnd ++ two rate ++ [b f.kp] ++ two f.pBase ++ two f.pMin ++ two f.pMax ++
          two f.timeLimit
      | .soak (.time d) f => [0x02] ++ two f.tEnd ++ [b f.kp] ++ two f.pBase ++ two f.pMin ++ two f.pMax ++ [0x01] ++
          three d ++ two f.timeLimit
      | .soak (.energy e) f => [0x02] ++ two f.tEnd ++ [b f.kp] ++ two f.pBase ++ two f.pMin ++ two f.pMax ++
          [0x02] ++ three e ++ two f.timeLimit
      | .dwell d => [0x03] ++ two d
    recipeBytes r = [b r.phases.length, b r.filterDepth] ++ two r.overtempCeiling ++ three r.energyCeiling ++
      three r.minEnergy ++ two r.rMin ++ two r.rMax ++ [b r.exitBand] ++ r.phases.flatMap phase) ∧
  (∀ r : Recipe, r.valid = true → r.rMax ≤ 65535 →
    parseRecipe (recipeBytes r) = some r ∧ 16 ≤ (recipeBytes r).length + 1 ∧ (recipeBytes r).length + 1 ≤ 112) ∧
  ∀ (bytes : List Byte) (r : Recipe), parseRecipe bytes = some r → recipeBytes r = bytes

/-- For every kind, tag and payload of at most 240 bytes and every state not held in reset whose receiver is HUNTING:
feeding the bytes of the frame (sync, length, kind, tag, payload, CRC high byte first) one BYTE_RECEIVED each gives
what FRAME_RECEIVED gives; with any other two CRC bytes the frame is discarded, the link error count rises by 1 up
to 65,535, and nothing else of the link changes. That FRAME_RECEIVED stands for the bytes of a sound frame, and that
a frame acts in the step of its last byte, is the model's (log entry 4). -/
def Obligations.FrameBytesMakeFrame : Prop :=
  ∀ (time : Nat) (kind tag : Byte) (payload : List Byte) (s : State), s.inReset = false →
    s.link.receiver = .hunting → payload.length ≤ 240 →
    feed time (frameBytes kind tag payload) s = exec (.frameReceived time kind tag payload) s ∧
    ∀ c1 c0 : Byte, [c1, c0] ≠ bytesBE 2 (crc16 (frameBody kind tag payload)).toNat →
      feed time (0xC3 :: frameBody kind tag payload ++ [c1, c0]) s =
        .next { s with now := max s.now time,
                       link := { s.link with gapTimer := none, linkErrors := min (s.link.linkErrors + 1) 65535 } }

/-- On a part not held in reset, a complete frame of at most 240 payload bytes returns the receiver to HUNTING. With the
buffer empty it becomes the frame in processing and is taken: an unknown kind (0, or above 26) is refused with
UNKNOWN_KIND, a payload that is not the layout of its kind with BAD_LENGTH, and any other request goes to its owner.
With one frame held it becomes the waiting frame. With two held it is dropped and the overrun count rises by 1 up to
65,535. -/
def Obligations.FrameBuffering : Prop :=
  (∀ n, Kind.ofCode? n = none ↔ n = 0 ∨ 26 < n) ∧
  ∀ (time : Nat) (kind tag : Byte) (payload : List Byte) (s : State), s.inReset = false → payload.length ≤ 240 →
    let f : LinkFrame := { kind := kind, tag := tag, payload := payload }
    let s1 : State :=
      { s with now := max s.now time, link := { s.link with receiver := .hunting, gapTimer := none } }
    let taken : State := { s1 with link := { s1.link with processing := some f } }
    let refused (reason : Byte) : State := taken.pushReply
      { kind := 0x7F, tag := tag, payload := [kind, reason], answersFrame := true, resets := false }
    (s.link.processing = none →
      (Kind.ofCode? kind.toNat = none → exec (.frameReceived time kind tag payload) s = .next (refused 0x01)) ∧
      (∀ k, Kind.ofCode? kind.toNat = some k → parsePayload k payload = none →
        exec (.frameReceived time kind tag payload) s = .next (refused 0x02)) ∧
      (∀ k q, Kind.ofCode? kind.toNat = some k → parsePayload k payload = some q →
        exec (.frameReceived time kind tag payload) s = .next (respond k tag true (takeRequest q) taken))) ∧
    (∀ p, s.link.processing = some p → s.link.waiting = none →
      exec (.frameReceived time kind tag payload) s = .next { s1 with link := { s1.link with waiting := some f } }) ∧
    (∀ p w, s.link.processing = some p → s.link.waiting = some w →
      exec (.frameReceived time kind tag payload) s =
        .next { s1 with link := { s1.link with overruns := min (s.link.overruns + 1) 65535 } })

/-- On a part not held in reset: in HUNTING a byte other than 0xC3 is dropped without a count, and 0xC3 enters IN_FRAME
and starts the 5 ms gap timer. In IN_FRAME a byte with a missing stop bit, and a length byte above 240, discard the
frame: HUNTING, gap timer stopped, link error count up by 1 to at most 65,535. A length byte of at most 240 is
collected and restarts the gap timer. The gap timer's expiry discards the frame in the same way. -/
def Obligations.ReceiverTakesBytes : Prop :=
  ∀ (time : Nat) (b : Byte) (s : State), s.inReset = false →
    let now := max s.now time
    let discarded (n : Nat) : State :=
      { s with now := n, link := { s.link with receiver := .hunting, gapTimer := none,
                                               linkErrors := min (s.link.linkErrors + 1) 65535 } }
    let collected (bs : List Byte) : State :=
      { s with now := now, link := { s.link with receiver := .inFrame bs, gapTimer := some (now + 5) } }
    (∀ stop, s.link.receiver = .hunting → b ≠ 0xC3 →
      exec (.byteReceived time b stop) s = .next { s with now := now }) ∧
    (s.link.receiver = .hunting → exec (.byteReceived time 0xC3 true) s = .next (collected [])) ∧
    (∀ bs, s.link.receiver = .inFrame bs → exec (.byteReceived time b false) s = .next (discarded now)) ∧
    (s.link.receiver = .inFrame [] → 240 < b.toNat →
      exec (.byteReceived time b true) s = .next (discarded now)) ∧
    (s.link.receiver = .inFrame [] → b.toNat ≤ 240 →
      exec (.byteReceived time b true) s = .next (collected [b])) ∧
    (∀ e, s.link.gapTimer = some e → exec .gapTimerExpiry s = .next (discarded (max s.now e)))

/-- On a part not held in reset: the oldest reply leaves the transmitter. Where it answered the frame in processing,
that frame leaves the buffer; a waiting frame then becomes the frame in processing and is taken at once. With no
reply being sent nothing but the clock changes. A RESET request changes nothing but the transmitter, which holds its
reply with the mark byte alone. When that reply is sent, a warm reset takes effect: the link is reset with the rate
read from the strap as it then stands and the last reset kind RESET request, and every other block is left as a warm
reset by the RESET line leaves it, the part not being held. The strap's level at that moment is a free value of the
model, whatever resets before it read (log entries 16, 26). -/
def Obligations.ReplySentAdvancesBuffer : Prop :=
  ∀ (time : Nat) (s : State), s.inReset = false →
    (s.link.replies = [] → exec (.replySent time) s = .next { s with now := max s.now time }) ∧
    (∀ tag, exec (.reset time tag) s = .next (s.answered time
      { kind := 0x83, tag := tag, payload := [0x00], answersFrame := false, resets := true })) ∧
    ∀ (r : Reply) (rest : List Reply), s.link.replies = r :: rest →
      let s1 : State := { s with now := max s.now time, link := { s.link with replies := rest } }
      let strap := Config.strapLevel s.choices
      (r.resets = true →
        exec (.replySent time) s = .next { State.warmReset { s1 with choices := s.choices + 1 } .line strap with
          link := { receiver := .hunting, gapTimer := none, processing := none, waiting := none, replies := [],
                    linkErrors := 0, overruns := 0, rate := strap, strap := strap, lastReset := .request } }) ∧
      (r.resets = false →
        (r.answersFrame = false → exec (.replySent time) s = .next s1) ∧
        (r.answersFrame = true → s.link.waiting = none →
          exec (.replySent time) s = .next { s1 with link := { s1.link with processing := none } }) ∧
        (∀ f, r.answersFrame = true → s.link.waiting = some f →
          exec (.replySent time) s =
            .next (State.takeFrame { s1 with link := { s1.link with waiting := none, processing := some f } } f)))

/-- A RESET line taken on a part not held in reset leaves: the link hunting with empty buffer, idle transmitter, counts
0, the strap's rate and reset kind RESET line; device mode HOLD with no causes and default options; every line
input's level unknown; every head IDLE with empty queue, no joint, fault count 0 and default settings and records;
every stage OFF with default settings, no frame and no segment, a bus-off order sent; tracker, results and events
empty; and a store operation in flight running on, with flags and enables clear and no waiting fetch. The part stays
in reset. The release ends the reset and starts each input's 2 ms filter, changing nothing else. That no filter runs
while the line holds the part, and that the filters start at the release, is the model's reading of R153 and R195
(log entry 17); the strap's level is an operand of the command (log entry 16). -/
def Obligations.WarmResetLeaves : Prop :=
  (∀ (time : Nat) (strap : Rate) (s : State), s.inReset = false →
    ∃ t, exec (.resetLine time strap) s = .next t ∧ t.inReset = true ∧ t.now = max s.now time ∧
      t.link = { receiver := .hunting, gapTimer := none, processing := none, waiting := none, replies := [],
                 linkErrors := 0, overruns := 0, rate := strap, strap := strap, lastReset := .line } ∧
      t.cell.mode = .hold ∧ t.cell.causeEstop = false ∧ t.cell.causeMotion = false ∧
      t.cell.motionPolicy = .keep ∧ t.cell.eraseSuspend = false ∧
      (∀ i, t.input i = { pin := (s.input i).pin, taken := none, filter := none }) ∧
      (∀ h, (t.head h).mode = .idle ∧ (t.head h).queue = [] ∧ (t.head h).joint = none ∧ (t.head h).faultCount = 0 ∧
        (t.head h).line.graceTimer = none ∧
        (t.head h).settings =
        { faultLimit := 3, stage := if h.num < 4 then .s0 else .s1, powerLimit := 15000, stalePolicy := .holdLast,
          floor := 2, ceiling := 13, settleStep := 4, startMode := .fromFloor, angleWindow := 8, probePower := 1000,
          driftLimit := 0, driftPolicy := .perJob, loadShiftLimit := 15, channelEnabled := true, staleLimit := 30,
          lostLimit := 200, clampReport := .none, flowGrace := 500 } ∧
        (t.head h).tuning =
          { currentTap := 2, lockState := .none, skipTap := none, lastLock := none, driftCount := 0,
            ceilingReached := false, lockHeld := true } ∧
        (t.head h).temp =
          { lastReceived := none, lastValue := none, underFlag := false, overFlag := false, tf := none,
            lastTaken := none, lostTimer := none }) ∧
      (∀ g, t.stage g =
        { mode := .off, settleTimer := none, busReady := false, matrix := none, segment := none,
          completionTimer := none, fault := none, powerLimit := 12000, gap := 3, settleTime := 800, active := none,
          pendingFrame := none, running := none, deferred := false, pointer := none, lastServed := none,
          lastDecision := none, orders := (s.stage g).orders ++ [.busOff] }) ∧
      t.tracker = [] ∧ t.report = { results := [], events := [], eventsLost := 0, attn := false } ∧
      t.store = { s.store with carried := s.store.op.isSome, programError := false, eraseError := false,
                               workingEnable := false, masterEnable := false, waiting := [] }) ∧
  ∀ (time : Nat) (s : State), s.inReset = true →
    ∃ t, exec (.resetLineReleased time) s = .next t ∧ t.inReset = false ∧ t.now = max s.now time ∧
      (∀ i, t.input i = { s.input i with filter := some (max s.now time + 2) }) ∧
      (∀ h, { t.head h with line := (s.head h).line } = s.head h ∧
        (t.head h).line.graceTimer = (s.head h).line.graceTimer) ∧
      (∀ g, t.stage g = s.stage g) ∧ t.cell.mode = s.cell.mode ∧ t.cell.causeEstop = s.cell.causeEstop ∧
      t.cell.causeMotion = s.cell.causeMotion ∧ t.cell.motionPolicy = s.cell.motionPolicy ∧
      t.cell.eraseSuspend = s.cell.eraseSuspend ∧ t.link = s.link ∧ t.tracker = s.tracker ∧ t.report = s.report ∧
      t.store = s.store

/-- A power-on reset leaves the store READY with no operation, no timer, both flags clear, both enables off and no
waiting fetch; a program in flight leaves its entry SPOILED, an erase in flight every entry of its bank, and every
other entry is kept. The link is hunting with empty buffer, idle transmitter, counts 0, the strap's rate and reset
kind power-on; the device is in HOLD with no causes and default options; every line input's level is unknown, with
its 2 ms filter started; every head is IDLE with empty queue, no joint, fault count 0, no grace timer and default
settings, tuning and temperature records; every stage is OFF with default settings, no frame and no segment, and a
bus-off order sent; tracker, results and events are empty, with no event lost. That it acts on a part the RESET line
holds and leaves it held, with no filter running, is the model's (log entry 17); the strap's level is an operand
(log entry 16). -/
def Obligations.PowerOnResetLeaves : Prop :=
  ∀ (time : Nat) (strap : Rate) (s : State), ∃ t, exec (.powerOnReset time strap) s = .next t ∧
    t.inReset = s.inReset ∧ t.now = max s.now time ∧
    t.link = { receiver := .hunting, gapTimer := none, processing := none, waiting := none, replies := [],
               linkErrors := 0, overruns := 0, rate := strap, strap := strap, lastReset := .powerOn } ∧
    t.cell.mode = .hold ∧ t.cell.causeEstop = false ∧ t.cell.causeMotion = false ∧ t.cell.motionPolicy = .keep ∧
    t.cell.eraseSuspend = false ∧
    (∀ i, t.input i = { pin := (s.input i).pin, taken := none,
                        filter := if s.inReset then none else some (max s.now time + 2) }) ∧
    t.store.mode = .ready ∧ t.store.op = none ∧ t.store.opTimer = none ∧ t.store.remaining = none ∧
    t.store.suspendTimer = none ∧ t.store.carried = false ∧ t.store.programError = false ∧ t.store.eraseError = false ∧
    t.store.workingEnable = false ∧ t.store.masterEnable = false ∧ t.store.waiting = [] ∧
    (∀ e : Fin 64, t.store.entries[e] =
      match s.store.op with
      | none => s.store.entries[e]
      | some (.program k _) => if e = k then .spoiled else s.store.entries[e]
      | some (.erase b) => if e.val / 16 = b.val then .spoiled else s.store.entries[e]) ∧
    (∀ h, (t.head h).mode = .idle ∧ (t.head h).queue = [] ∧ (t.head h).joint = none ∧ (t.head h).faultCount = 0 ∧
      (t.head h).line.graceTimer = none ∧
      (t.head h).settings =
        { faultLimit := 3, stage := if h.num < 4 then .s0 else .s1, powerLimit := 15000, stalePolicy := .holdLast,
          floor := 2, ceiling := 13, settleStep := 4, startMode := .fromFloor, angleWindow := 8, probePower := 1000,
          driftLimit := 0, driftPolicy := .perJob, loadShiftLimit := 15, channelEnabled := true, staleLimit := 30,
          lostLimit := 200, clampReport := .none, flowGrace := 500 } ∧
      (t.head h).tuning =
        { currentTap := 2, lockState := .none, skipTap := none, lastLock := none, driftCount := 0,
          ceilingReached := false, lockHeld := true } ∧
      (t.head h).temp =
        { lastReceived := none, lastValue := none, underFlag := false, overFlag := false, tf := none,
          lastTaken := none, lostTimer := none }) ∧
    (∀ g, t.stage g =
      { mode := .off, settleTimer := none, busReady := false, matrix := none, segment := none,
        completionTimer := none, fault := none, powerLimit := 12000, gap := 3, settleTime := 800, active := none,
        pendingFrame := none, running := none, deferred := false, pointer := none, lastServed := none,
        lastDecision := none, orders := (s.stage g).orders ++ [.busOff] }) ∧
    t.tracker = [] ∧ t.report = { results := [], events := [], eventsLost := 0, attn := false }

/-- On a part not held in reset each of these requests is accepted and changes nothing but the clock and the
transmitter. The reply data is given whole, field by field: IDENTIFY (R194); GET_STATUS, the parts of R194 (link,
interlock R167, job manager R25, stages R120, report block R176, store); GET_STAGE (R119); GET_FRAME (R98, with the
decision record of R99) and GET_STORE (R183). A stage number above 1 is refused with BAD_FIELD. READ_RECIPE of an
entry above 63 is refused with BAD_FIELD; an entry of a bank being erased is given as ERASING; in READY any other
entry is given as BLANK, SPOILED or VALID with its record; in every other store state such an entry is refused with
STORE_BUSY. How the fields of these replies follow one another where R193 leaves it open, and the missing counts
before the bank-writable flags and the entry states are the model's (log entries 19, 40). The time left of a last-
served record whose end time has passed (R81 keeps it) is a free value of the model (log entry 39). The codes of the
choices are those of R192 and R194. -/
def Obligations.ReadingChangesNothing : Prop :=
  (rateCode .baud115200 = 0 ∧ rateCode .baud460800 = 1 ∧
    [ResetKind.powerOn, .line, .request].map ResetKind.code = [0, 1, 2] ∧
    [DeviceMode.run, .hold, .interlocked].map DeviceMode.code = [1, 2, 3] ∧
    [MotionPolicy.keep, .flush].map MotionPolicy.code = [1, 2] ∧
    [StageMode.off, .settling, .ready, .fault].map StageMode.code = [1, 2, 3, 4] ∧
    [FaultCause.trip, .busNotReady, .busLost, .linkTimeout].map FaultCause.code = [1, 2, 3, 4] ∧
    [RuleName.passive, .fixed, .prefer, .rotate, .chain, .split].map RuleName.code = [1, 2, 3, 4, 5, 6] ∧
    [Fallback.passive, .rotate].map Fallback.code = [1, 4] ∧
    [Part.whole, .first, .second].map Part.code = [1, 2, 3] ∧
    [DecisionOutcome.passiveRule, .noneWanting, .heatSent, .probeSent, .zeroPower, .windowShort, .overtaken].map
      DecisionOutcome.code = [1, 2, 3, 4, 5, 6, 7] ∧
    [StoreMode.ready, .programming, .erasing, .eraseSuspended].map StoreMode.code = [1, 2, 3, 4] ∧
    flagCode false = 0 ∧ flagCode true = 1 ∧ headField none = [0xFF] ∧
    ∀ h, headField (some h) = byteField h.num) ∧
  ∀ (time : Nat) (tag : Byte) (s : State), s.inReset = false →
    let now := max s.now time
    let left (timer : Option Nat) : List Byte := optNum 4 (timer.map (· - now))
    let levels (xs : List Input) : List Byte := xs.flatMap fun x => byteField (takenCode x.taken)
    exec (.identify time tag) s = .next (s.answered time (okReply 0x81 tag
      ([0x0B, 0x08, Config.hardwareRevision] ++ bytesBE 2 Config.firmwareRevision.toNat ++
        byteField (rateCode s.link.rate) ++ byteField s.link.lastReset.code ++ numField 2 s.link.linkErrors ++
        numField 2 s.link.overruns))) ∧
    exec (.getStatus time tag) s = .next (s.answered time (okReply 0x82 tag
      (numField 2 s.link.linkErrors ++ numField 2 s.link.overruns ++ byteField (rateCode s.link.rate) ++
        byteField s.link.lastReset.code ++
        byteField s.cell.mode.code ++ byteField (flagCode s.cell.causeEstop + 2 * flagCode s.cell.causeMotion) ++
        levels [s.cell.estop, s.cell.motion, s.cell.key] ++ byteField s.cell.motionPolicy.code ++
        flagField s.cell.eraseSuspend ++
        (Head.all.flatMap fun h => byteField (s.head h).mode.code) ++
        (Head.all.flatMap fun h => byteField (s.head h).queue.length) ++ byteField s.activeJoints ++
        listField (fun e : IndexEntry => numField 2 e.tag ++ byteField e.outstanding ++ numField 2 e.ended ++
          numField 2 e.failed ++ flagField e.closed) s.tracker ++
        (Stage.all.flatMap fun g => byteField (s.stage g).mode.code) ++
        (Stage.all.flatMap fun g => headField (s.stage g).matrix) ++
        (Stage.all.flatMap fun g => flagField (s.stage g).segment.isSome) ++
        (Stage.all.flatMap fun g => optNum 1 ((s.stage g).fault.map fun c => c.cause.code)) ++
        byteField s.report.results.length ++ byteField s.activeJoints ++
        byteField (32 - (s.report.results.length + s.activeJoints)) ++ byteField s.report.events.length ++
        byteField s.report.eventsLost ++ flagField s.report.attn ++ byteField s.store.mode.code ++
        flagField s.store.programError ++ flagField s.store.eraseError))) ∧
    (∀ stage g, Stage.ofNum? stage = some g →
      let r := s.stage g
      let segment (x : Segment) : List Byte :=
        byteField x.head.num ++ byteField x.tap ++ numField 2 x.power ++ byteField x.lead ++ byteField x.duration ++
          flagField x.continuation ++ flagField x.cut ++ numField 4 (now - x.handover) ++
          numField 4 (r.completionTimer.getD now - now)
      let cause (c : CauseRec) : List Byte :=
        byteField c.cause.code ++ byteField c.tripCode ++ numField 4 c.time ++ flagField c.cleared
      let slot (x : Slot) : List Byte := (x.length :: match x.rule with
        | .passive => [1, 0, 0, 0, 0]
        | .fixed h fb => [2, h.num, 0, fb.code, 0]
        | .prefer h k => [3, h.num, k.num, 0, 0]
        | .rotate => [4, 0, 0, 0, 0]
        | .chain h fb => [5, h.num, 0, fb.code, 0]
        | .split h k m => [6, h.num, k.num, 0, m]).flatMap byteField
      let frame (f : Option (List Slot)) : List Byte := match f with
        | some f => byteField 1 ++ listField slot f ++ numField 2 (f.map Slot.length).sum
        | none => [0, 0, 0, 0].flatMap byteField
      let decision (d : SlotDecision) : List Byte :=
        byteField d.slot ++ byteField d.part.code ++ numField 4 d.wait ++ byteField d.rule.code ++
          headField d.recipient ++ byteField d.outcome.code ++ optNum 1 (d.sent.map fun x => flagCode x.gap) ++
          optNum 4 (d.sent.map SentRec.window) ++ optNum 1 (d.sent.map SentRec.duration) ++
          optNum 2 (d.sent.map SentRec.power) ++ optNum 1 (d.sent.map fun x => flagCode x.continuation)
      let lastServed (x : Head × Nat) : List Byte :=
        byteField x.1.num ++
          if now ≤ x.2 then numField 4 (x.2 - now) else bytesBE 4 (Config.pastTimeLeft (now - x.2))
      exec (.getStage time tag stage) s = .next (s.answered time (okReply 0x91 tag
        (byteField r.mode.code ++ left r.settleTimer ++ flagField r.busReady ++ headField r.matrix ++
          optField 16 (r.segment.map segment) ++ optField 7 (r.fault.map cause) ++ numField 2 r.powerLimit ++
          byteField r.gap ++ numField 2 r.settleTime ++
          listField (fun h => byteField h.num ++ byteField (s.head h).mode.code)
            (Head.all.filter fun h => (s.head h).settings.stage = g)))) ∧
      exec (.getFrame time tag stage) s = .next (s.answered time (okReply 0x92 tag
        (frame r.active ++ frame r.pendingFrame ++ flagField r.running.isSome ++
          optNum 1 (r.running.map Running.slot) ++ optNum 1 (r.running.map fun x => x.part.code) ++
          optNum 4 (r.running.map fun x => now - x.partStart) ++ optNum 4 (r.running.map fun x => x.partEnd - now) ++
          flagField r.deferred ++ headField r.pointer ++
          optField 5 (r.lastServed.map lastServed) ++ headField r.matrix ++
          headField (r.segment.map Segment.head) ++ optField 23 (r.lastDecision.map decision))))) ∧
    (∀ stage, 1 < stage →
      exec (.getStage time tag stage) s = .next (s.answered time (refusalReply 0x11 tag 0x03)) ∧
      exec (.getFrame time tag stage) s = .next (s.answered time (refusalReply 0x12 tag 0x03))) ∧
    (let x := s.store
      let operation (op : StoreOp) : List Byte :=
        (match op with
          | .program e _ => byteField 1 ++ byteField e.val
          | .erase b => byteField 2 ++ byteField b.val) ++
          numField 4 (x.remaining.getD (x.opTimer.getD now - now)) ++ left x.suspendTimer
      let writable (bank : Nat) : Bool :=
        x.workingEnable && (decide (2 ≤ bank) || (x.masterEnable && decide (s.cell.key.taken = some .high)))
      let stored (e : Fin 64) : Nat := match x.entries[e] with | .blank => 1 | .valid _ => 2 | .spoiled => 3
      let shown (e : Fin 64) : Nat := match x.op with
        | some (.erase b) => if b.val = e.val / 16 then 4 else stored e
        | _ => stored e
      exec (.getStore time tag) s = .next (s.answered time (okReply 0x98 tag
        (byteField x.mode.code ++ optField 11 (x.op.map operation) ++ flagField x.programError ++
          flagField x.eraseError ++ flagField x.workingEnable ++ flagField x.masterEnable ++ levels [s.cell.key] ++
          ([0, 1, 2, 3].flatMap fun b => flagField (writable b)) ++
          ((List.finRange 64).flatMap fun e => byteField (shown e)) ++
          listField (fun f : Fetch => byteField f.head.num ++ byteField f.entry) x.waiting)))) ∧
    (∀ entry, 63 < entry →
      exec (.readRecipe time tag entry) s = .next (s.answered time (refusalReply 0x15 tag 0x03))) ∧
    ∀ e : Fin 64,
      let erasing : Prop := ∃ b : Fin 4, s.store.op = some (.erase b) ∧ b.val = e.val / 16
      let answers (r : Reply) : Prop := exec (.readRecipe time tag e.val) s = .next (s.answered time r)
      (erasing → answers (okReply 0x95 tag [0x04])) ∧
      (¬ erasing → s.store.mode = .ready →
        (s.store.entries[e] = .blank → answers (okReply 0x95 tag [0x01])) ∧
        (s.store.entries[e] = .spoiled → answers (okReply 0x95 tag [0x03])) ∧
        (∀ r, s.store.entries[e] = .valid r → answers (okReply 0x95 tag (0x02 :: recipeBytes r)))) ∧
      (¬ erasing → s.store.mode ≠ .ready → answers (refusalReply 0x15 tag 0x0F))

/-- On a part not held in reset, GET_HEAD of a head 0 to 7 is accepted in every head state. Every part of the reply is
spelled field by field with what makes the field present: the job manager's part (recipe loaded and start seen of an
ARMED joint, tags and recipe number of an active joint, the phase entered, the cause of a STOPPING joint, the queued
tags, fault count and limit); the heat part (E_J, remainder and phase entries in TUNING, HEATING and STOPPING;
trimmed minimum and ceiling there and in ARMED with the recipe loaded; the phase fields in HEATING and STOPPING once
a phase is entered, T_entry in a RAMP phase where it is set); the decision record in HEATING and STOPPING once there
is one; the tuning part; the temperature part; the line part; and all 19 settings. The ceiling-reached and the lock-
held flag are given as the request finds them; then the first is clear and the second true, and nothing else but the
clock and the transmitter changes. A head number above 7 is refused with BAD_HEAD. An optional field is a presence
byte with its value or with zeros, a list a count and its members, a choice its code of R192. How the fields follow
one another where R193 leaves it open is log entry 19; the code of a sample kind is free (log entry 13). -/
def Obligations.GetHeadReadsAndResetsFlags : Prop :=
  ∀ (time : Nat) (tag : Byte) (s : State), s.inReset = false →
    (∀ head h, Head.ofNum? head = some h →
      let now := max s.now time
      let r := s.head h
      let t := r.tuning
      let x := r.settings
      let joint := r.joint
      let lock : Option LockRecord := joint.bind Joint.lock
      let shown (test : Bool) (f : Joint → Nat) : Option Nat := if test then joint.map f else none
      let isArmed : Bool := r.mode = .armed
      let isStopping : Bool := r.mode = .stopping
      let started : Bool := r.mode ∈ [HeadMode.tuning, .heating, .stopping]
      let hot : Bool := r.mode ∈ [HeadMode.heating, .stopping]
      let phase : Option Nat := joint.bind Joint.phase
      let inPhase : Bool := hot && phase.isSome
      let loaded : Bool := started || (isArmed && (joint.bind Joint.recipe).isSome)
      let current : Option Phase := joint.bind fun j =>
        j.recipe.bind fun rec => j.phase.bind fun n => rec.phases[n - 1]?
      let job : List Byte :=
        byteField r.mode.code ++ optNum 1 (shown isArmed fun j => if j.recipe.isSome then 1 else 0) ++
          optNum 1 (shown isArmed fun j => if j.startSeen then 1 else 0) ++
          optNum 2 (joint.map fun j => j.job.jobTag) ++ optNum 2 (joint.map fun j => j.job.indexTag) ++
          optNum 1 (joint.map fun j => j.job.recipe) ++ optNum 1 phase ++
          optNum 1 (if isStopping then (joint.bind Joint.cause).map JointOutcome.code else none) ++
          listField (fun j : Job => numField 2 j.jobTag) r.queue ++ byteField r.faultCount ++ byteField x.faultLimit
      let kind : Option Nat := current.map fun p => match p with
        | .ramp _ _ => 0x01
        | .soak _ _ => 0x02
        | .dwell _ => 0x03
      let rampEntry : Option Nat := match current with
        | some (.ramp _ _) => joint.bind Joint.tEntry
        | _ => none
      let heat : List Byte :=
        optNum 3 (shown started Joint.energy) ++ optNum 3 (shown loaded Joint.minEnergy) ++
          optNum 3 (shown loaded Joint.ceiling) ++ optNum 1 (if inPhase then phase else none) ++
          optNum 1 (if inPhase then kind else none) ++
          optNum 4 (shown inPhase fun j => now - j.phaseEntry.getD now) ++
          optNum 3 (shown inPhase fun j => j.energy - j.entryEnergy) ++
          optNum 2 (if inPhase then rampEntry else none) ++
          optNum 1 (shown inPhase fun j => if j.exitPending then 1 else 0) ++
          optNum 1 (shown started fun j => j.phaseList.length)
      let decision (d : DecisionRecord) : List Byte :=
        numField 4 d.time ++ byteField d.basis.code ++ optNum 4 d.age ++ optNum 2 d.target ++
          optField 2 (d.error.map fun e => numField 2 (if 0 ≤ e then e.toNat else (65536 + e).toNat)) ++
          numField 2 d.cap ++ numField 2 d.lowerBound ++ numField 2 d.setpoint ++ flagField d.orderSent
      let record : List Byte :=
        optNum 2 (shown started Joint.remainder) ++
          optField 23 ((if hot then joint.bind Joint.decision else none).map decision)
      let k := r.temp
      let temperature : List Byte :=
        flagField x.channelEnabled ++ byteField x.staleLimit ++ numField 2 x.lostLimit ++
          optField 5 (k.lastReceived.map fun y => Config.sampleKindCode y.1 :: numField 4 (now - y.2)) ++
          optField 6 (k.lastValue.map fun y => numField 2 y.1 ++ numField 4 (now - y.2)) ++ flagField k.underFlag ++
          flagField k.overFlag ++ optNum 2 k.tf ++ optNum 4 (k.lastTaken.map fun e => now - e) ++
          optNum 4 (k.lostTimer.map fun e => e - now) ++ optNum 2 (joint.bind Joint.peak)
      let line : List Byte :=
        byteField (takenCode r.line.clamp.taken) ++ byteField (takenCode r.line.flow.taken) ++
          byteField x.clampReport.code ++ numField 2 x.flowGrace ++
          optNum 4 (r.line.graceTimer.map fun e => e - now)
      let settings : List Byte :=
        [if r.mode = .disabled then 0 else 1, x.faultLimit, x.stage.num, x.powerLimit, x.stalePolicy.code, x.floor,
          x.ceiling, x.settleStep, x.startMode.code, x.angleWindow, x.probePower, x.driftLimit, x.driftPolicy.code,
          x.loadShiftLimit, if x.channelEnabled then 1 else 0, x.staleLimit, x.lostLimit, x.clampReport.code,
          x.flowGrace].flatMap (numField 2)
      exec (.getHead time tag head) s =
        .next ((s.setHead h { r with tuning := { t with ceilingReached := false, lockHeld := true } }).answered time
          (okReply 0x90 tag (job ++ heat ++ record ++
            (byteField t.currentTap ++ byteField t.lockState.code ++ optNum 1 t.skipTap ++
              optNum 1 (t.lastLock.map LockRecord.tap) ++ optNum 2 (t.lastLock.map LockRecord.load) ++
              byteField t.driftCount ++ flagField t.ceilingReached ++ flagField t.lockHeld ++ byteField x.floor ++
              byteField x.ceiling ++ byteField x.settleStep ++ byteField x.startMode.code ++
              byteField x.angleWindow ++ numField 2 x.probePower ++ byteField x.driftLimit ++
              byteField x.driftPolicy.code ++ byteField x.loadShiftLimit ++ optNum 1 (lock.map LockRecord.tap) ++
              optNum 2 (lock.map LockRecord.load)) ++
            temperature ++ line ++ settings)))) ∧
    (∀ head, 7 < head → exec (.getHead time tag head) s = .next (s.answered time (refusalReply 0x10 tag 0x04))) ∧
    (∀ n v, optNum n none = byteField 0 ++ List.replicate n 0 ∧ optNum n (some v) = byteField 1 ++ numField n v) ∧
    (∀ n bs, optField n none = byteField 0 ++ List.replicate n 0 ∧ optField n (some bs) = byteField 1 ++ bs) ∧
    (∀ js : List Job, listField (fun j : Job => numField 2 j.jobTag) js =
      byteField js.length ++ js.flatMap fun j => numField 2 j.jobTag) ∧
    (∀ v, flagField v = byteField (if v then 1 else 0)) ∧
    [HeadMode.idle, .armed, .tuning, .heating, .stopping, .faulted, .disabled].map HeadMode.code = [1, 2, 3, 4, 5, 6, 7] ∧
    [LockState.none, .searching, .locked].map LockState.code = [1, 2, 3] ∧
    [Basis.computed, .holdLast, .stepDown].map Basis.code = [1, 2, 3] ∧
    [StalePolicy.holdLast, .stepDown].map StalePolicy.code = [1, 2] ∧
    [TuneStart.fromFloor, .fromLast].map TuneStart.code = [1, 2] ∧
    [DriftPolicy.perJob, .running].map DriftPolicy.code = [1, 2] ∧
    [ClampReport.none, .rise, .fall, .both].map ClampReport.code = [1, 2, 3, 4] ∧
    [none, some Level.high, some .low].map takenCode = [0, 1, 2]

/-- On a part not held in reset, for every list of items. SET_CELL with each code once or not at all, the motion policy
(code 0x01, 1 KEEP or 2 FLUSH) and the erase suspend enable (code 0x02, 0 or 1), is accepted in every device mode:
each option becomes what its item carries, an absent one stays, and the reply carries both as two-byte values; an
item with another code or value, or one code twice, is refused with BAD_FIELD. SET_STAGE with each of the codes 0x01
power limit, 0x02 gap and 0x03 settle time once or not at all: in OFF and FAULT each setting becomes its item's
value clamped to 1,000 to 15,000 W, 0 to 15 ms or 100 to 5,000 ms, an absent one stays, and the reply carries all
three, marked when any value was clamped; in SETTLING and READY it is refused with BUSY; an unknown code or one code
twice is refused with BAD_FIELD in every stage state. A stage number above 1 is refused with BAD_FIELD whatever the
items. A refusal changes nothing. -/
def Obligations.SetCellAndStageTakeSettings : Prop :=
  ∀ (time : Nat) (tag : Byte) (items : List Item) (s : State), s.inReset = false →
    let once : Prop := (items.map Item.code).Nodup
    let carried (code : Nat) : Option Nat := (items.find? fun i => i.code = code).map Item.value
    let cellItem (i : Item) : Prop :=
      (i.code = 1 ∧ (i.value = 1 ∨ i.value = 2)) ∨ (i.code = 2 ∧ (i.value = 0 ∨ i.value = 1))
    (((∀ i ∈ items, cellItem i) ∧ once →
      let policy : MotionPolicy := match carried 1 with
        | some v => if v = 2 then .flush else .keep
        | none => s.cell.motionPolicy
      let suspend : Bool := match carried 2 with
        | some v => v = 1
        | none => s.cell.eraseSuspend
      exec (.setCell time tag items) s =
        .next (({ s with cell := { s.cell with motionPolicy := policy, eraseSuspend := suspend } } : State).answered time
          (okReply 0x84 tag (numField 2 (if policy = .flush then 2 else 1) ++ numField 2 (if suspend then 1 else 0))))) ∧
      ((∃ i ∈ items, ¬ cellItem i) ∨ ¬ once →
        exec (.setCell time tag items) s = .next (s.answered time (refusalReply 0x04 tag 0x03)))) ∧
    (∀ stage g, Stage.ofNum? stage = some g →
      let r := s.stage g
      let known : Prop := ∀ i ∈ items, i.code = 1 ∨ i.code = 2 ∨ i.code = 3
      let clamp (code v : Nat) : Nat :=
        if code = 1 then max 1000 (min v 15000) else if code = 2 then max 0 (min v 15) else max 100 (min v 5000)
      let taken (code old : Nat) : Nat := match carried code with
        | some v => clamp code v
        | none => old
      let p := taken 1 r.powerLimit
      let q := taken 2 r.gap
      let w := taken 3 r.settleTime
      (known → once → r.mode = .off ∨ r.mode = .fault →
        exec (.setStage time tag stage items) s =
          .next ((s.setStage g { r with powerLimit := p, gap := q, settleTime := w }).answered time
            ((if ∀ i ∈ items, clamp i.code i.value = i.value then okReply else markedReply) 0x86 tag
              (numField 2 p ++ numField 2 q ++ numField 2 w)))) ∧
      (known → once → r.mode = .settling ∨ r.mode = .ready →
        exec (.setStage time tag stage items) s = .next (s.answered time (refusalReply 0x06 tag 0x09))) ∧
      (¬ known ∨ ¬ once →
        exec (.setStage time tag stage items) s = .next (s.answered time (refusalReply 0x06 tag 0x03)))) ∧
    ∀ stage, 1 < stage →
      exec (.setStage time tag stage items) s = .next (s.answered time (refusalReply 0x06 tag 0x03))

/-- On a part not held in reset: a head number above 7 is refused with BAD_HEAD; an unknown item code, a value outside
the choices of a setting that is not clamped, one code twice, or a floor above the ceiling with BAD_FIELD, in every
head state. A request with one setting takes its value, clamped (powers rounded down to 10 W) and the reply marked
where the table says so, and changes nothing else; but in ARMED, TUNING, HEATING and STOPPING a change of the stage,
a tuning setting or the channel enable is refused with BUSY, and a change of the stage with FRAME_CONFLICT where the
active or pending frame of the present stage names the head. Turning the head off is refused with BUSY in those
states; in IDLE and FAULTED it flushes the queue, sets the fault count to 0 and disables the head; in DISABLED it
changes nothing. Turning a DISABLED head on makes it IDLE and re-tries activation, after a setting carried beside it
has been taken; any other head is left as it is. -/
def Obligations.SetHeadLimitAndEnable : Prop :=
  ∀ (time : Nat) (tag : Byte) (s : State), s.inReset = false →
    (∀ head items, 7 < head →
      exec (.setHead time tag head items) s = .next (s.answered time (refusalReply 0x05 tag 0x04))) ∧
    ∀ head h, Head.ofNum? head = some h →
      let r := s.head h
      let x := r.settings
      let now := s.advance time
      let busy : Prop := r.mode ∈ [HeadMode.armed, .tuning, .heating, .stopping]
      let refused (items : List Item) (reason : Byte) : Prop :=
        exec (.setHead time tag head items) s = .next (s.answered time (refusalReply 0x05 tag reason))
      let sends (items : List Item) (reply : Byte → Byte → List Byte → Reply) (u : State) : Prop :=
        exec (.setHead time tag head items) s =
          .next (u.pushReply (reply 0x85 tag (settingsBytes (headSettings (u.head h)))))
      let within (low high v : Nat) : Nat := max low (min v high)
      let choice {α : Type} (choices : List α) (v : Nat) : Option α := if v = 0 then none else choices[v - 1]?
      let item (code v : Nat) : Option (HeadSettings × Nat) :=
        match code with
        | 0x02 => some ({ x with faultLimit := within 1 8 v }, within 1 8 v)
        | 0x03 => (Stage.ofNum? v).map fun g => ({ x with stage := g }, v)
        | 0x04 => some ({ x with powerLimit := within 500 15000 v / 10 * 10 }, within 500 15000 v / 10 * 10)
        | 0x05 => (choice [StalePolicy.holdLast, .stepDown] v).map fun p => ({ x with stalePolicy := p }, v)
        | 0x06 => if v ≤ 15 then some ({ x with floor := v }, v) else none
        | 0x07 => if v ≤ 15 then some ({ x with ceiling := v }, v) else none
        | 0x08 => if v ∈ [2, 4, 8, 16] then some ({ x with settleStep := v }, v) else none
        | 0x09 => (choice [TuneStart.fromFloor, .fromLast] v).map fun p => ({ x with startMode := p }, v)
        | 0x0A => some ({ x with angleWindow := within 1 30 v }, within 1 30 v)
        | 0x0B => some ({ x with probePower := within 500 2000 v / 10 * 10 }, within 500 2000 v / 10 * 10)
        | 0x0C => some ({ x with driftLimit := min v 255 }, min v 255)
        | 0x0D => (choice [DriftPolicy.perJob, .running] v).map fun p => ({ x with driftPolicy := p }, v)
        | 0x0E => some ({ x with loadShiftLimit := within 1 100 v }, within 1 100 v)
        | 0x0F => if v ≤ 1 then some ({ x with channelEnabled := v = 1 }, v) else none
        | 0x10 => some ({ x with staleLimit := within 10 100 v }, within 10 100 v)
        | 0x11 => some ({ x with lostLimit := within 50 1000 v }, within 50 1000 v)
        | 0x12 => (choice [ClampReport.none, .rise, .fall, .both] v).map fun p => ({ x with clampReport := p }, v)
        | 0x13 => some ({ x with flowGrace := within 100 2000 v }, within 100 2000 v)
        | _ => none
      (∀ items : List Item, (∃ i ∈ items, (i.code = 1 → 1 < i.value) ∧ (i.code ≠ 1 → item i.code i.value = none)) ∨
          ¬ (items.map Item.code).Nodup → refused items 0x03) ∧
      (∀ code v y w, item code v = some (y, w) →
        let free : Prop := code ∈ [0x02, 0x04, 0x05, 0x10, 0x11, 0x12, 0x13]
        let named : Prop := ∃ f, ((s.stage x.stage).active = some f ∨ (s.stage x.stage).pendingFrame = some f) ∧
          ∃ z ∈ f, h ∈ z.rule.heads
        (y.ceiling < y.floor → refused [⟨code, v⟩] 0x03) ∧
        (y.floor ≤ y.ceiling →
          (busy → ¬ free → y ≠ x → refused [⟨code, v⟩] 0x09) ∧
          (¬ busy → y.stage ≠ x.stage → named → refused [⟨code, v⟩] 0x0D) ∧
          (¬ busy ∨ free ∨ y = x → y.stage = x.stage ∨ ¬ named →
            sends [⟨code, v⟩] (if w = v then okReply else markedReply) (now.setHead h { r with settings := y })) ∧
          (r.mode = .disabled → y.stage = x.stage ∨ ¬ named →
            sends [⟨code, v⟩, ⟨1, 1⟩] (if w = v then okReply else markedReply)
              ((now.setHead h { r with settings := y, mode := .idle }).retry)))) ∧
      (x.floor ≤ x.ceiling →
        (busy → refused [⟨1, 0⟩] 0x09) ∧
        (r.mode = .idle ∨ r.mode = .faulted →
          sends [⟨1, 0⟩] okReply ((now.flushHead h).modHead h fun r => { r with faultCount := 0, mode := .disabled })) ∧
        (r.mode = .disabled → sends [⟨1, 0⟩] okReply now) ∧
        (r.mode = .disabled → sends [⟨1, 1⟩] okReply ((now.modHead h fun r => { r with mode := .idle }).retry)) ∧
        (r.mode ≠ .disabled → sends [⟨1, 1⟩] okReply now))

/-- On a part not held in reset: a stage number above 1 is refused with BAD_FIELD. FRAME_INVALID refuses a frame with no
slot, with more than 8 slots, with every length 0, or with a slot of a length above 250, of an unknown rule, naming
a head above 7 or one not mapped to the stage where its rule uses the head, with a fallback other than PASSIVE and
ROTATE in a FIXED or CHAIN slot, with one head twice in a SPLIT slot, or with the split point of a live SPLIT slot
outside 1 ms to the length less 1 ms. Every other frame, read slot by slot into the rules it names, becomes the
pending frame of a READY stage that has an active frame, replacing one held, without an event. On any other stage it
becomes the active frame and FRAME_ADOPTED is raised; on a READY stage its first live slot then starts. The reply
carries the pass time and adopted (0x01) or pending (0x02). -/
def Obligations.LoadFrameAdoptedOrPending : Prop :=
  ∀ (time : Nat) (tag : Byte) (stage : Nat) (slots : List RawSlot) (s : State), s.inReset = false →
    (1 < stage → exec (.loadFrame time tag stage slots) s = .next (s.answered time (refusalReply 0x07 tag 0x03))) ∧
    ∀ g, Stage.ofNum? stage = some g →
      let mapped (n : Nat) (h : Head) : Prop := Head.ofNum? n = some h ∧ (s.head h).settings.stage = g
      let unmapped (n : Nat) : Prop := ∀ h, ¬ mapped n h
      let bad (x : RawSlot) : Prop :=
        250 < x.length ∨ x.rule ∉ [1, 2, 3, 4, 5, 6] ∨ (x.rule ∈ [2, 3, 5, 6] ∧ unmapped x.first) ∨
          (x.rule ∈ [3, 6] ∧ unmapped x.second) ∨ (x.rule ∈ [2, 5] ∧ x.fallback ∉ [1, 4]) ∨
          (x.rule = 6 ∧ x.first = x.second) ∨
          (x.rule = 6 ∧ x.length ≠ 0 ∧ (x.split = 0 ∨ x.length ≤ x.split))
      let reads (x : RawSlot) (y : Slot) : Prop :=
        y.length = x.length ∧ match y.rule with
          | .passive => x.rule = 1
          | .fixed h fb => x.rule = 2 ∧ mapped x.first h ∧ x.fallback = fb.code
          | .prefer h k => x.rule = 3 ∧ mapped x.first h ∧ mapped x.second k
          | .rotate => x.rule = 4
          | .chain h fb => x.rule = 5 ∧ mapped x.first h ∧ x.fallback = fb.code
          | .split h k m => x.rule = 6 ∧ mapped x.first h ∧ mapped x.second k ∧ x.split = m
      let invalid : Prop := slots = [] ∨ 8 < slots.length ∨ (∀ x ∈ slots, x.length = 0) ∨ ∃ x ∈ slots, bad x
      (invalid → exec (.loadFrame time tag stage slots) s = .next (s.answered time (refusalReply 0x07 tag 0x0C))) ∧
      (¬ invalid → ∃ f : List Slot, f.length = slots.length ∧
        (∀ (i : Nat) (x : RawSlot) (y : Slot), slots[i]? = some x → f[i]? = some y → reads x y) ∧
        let data (how : Byte) : List Byte := numField 2 (slots.map RawSlot.length).sum ++ [how]
        let adopted : State :=
          ((s.advance time).setStage g { s.stage g with active := some f, pendingFrame := none }).raise (.frameAdopted g)
        ((s.stage g).mode = .ready → (s.stage g).active.isSome →
          exec (.loadFrame time tag stage slots) s =
            .next ((s.setStage g { s.stage g with pendingFrame := some f }).answered time
              (okReply 0x87 tag (data 0x02)))) ∧
        ((s.stage g).mode = .ready → (s.stage g).active = none → ∃ n x, firstLive f n x ∧
          exec (.loadFrame time tag stage slots) s = .next ((adopted.startSlot g n (max s.now time)).pushReply
            (okReply 0x87 tag (data 0x01)))) ∧
        ((s.stage g).mode ≠ .ready →
          exec (.loadFrame time tag stage slots) s = .next (adopted.pushReply (okReply 0x87 tag (data 0x01)))))

/-- On a part not held in reset: a head number above 7 is refused with BAD_HEAD; a job tag of 0, a recipe number above
63, a start mode that is none of the three, a last-of-index byte other than 0 and 1, and an arm timeout above 600 s
with BAD_FIELD. The state checks then come in the order HEAD_DISABLED, DUPLICATE_TAG, QUEUE_FULL, INDEX_CLOSED,
INDEX_FULL. A job that passes joins the tail of the queue with its trim (100 where absent, else clamped to 50 to
150, marked when clamped), the index tracker takes it, and activation is re-tried. Where the tracker has an open
entry for the index tag, the entry stays in its place with outstanding one higher and is closed exactly by a last-
of-index job; where it has none, an entry with outstanding 1, ended 0 and failed 0 joins the tracker as the newest,
closed exactly by a last-of-index job; every other entry stays. -/
def Obligations.SubmitJobChecksAndQueues : Prop :=
  ∀ (time : Nat) (tag : Byte) (head : Nat) (raw : RawJob) (s : State), s.inReset = false →
    let refused (reason : Byte) : Prop :=
      exec (.submitJob time tag head raw) s = .next (s.answered time (refusalReply 0x08 tag reason))
    (7 < head → refused 0x04) ∧
    ∀ h, Head.ofNum? head = some h →
      (raw.jobTag = 0 ∨ 63 < raw.recipe ∨ raw.startMode ∉ [1, 2, 3] ∨ raw.lastOfIndex ∉ [0, 1] ∨
        600 < raw.armTimeout → refused 0x03) ∧
      ∀ mode, raw.jobTag ≠ 0 → raw.recipe ≤ 63 → StartMode.ofCode? raw.startMode = some mode →
        raw.lastOfIndex ∈ [0, 1] → raw.armTimeout ≤ 600 →
        let trim := if raw.trim = 0 then 100 else max 50 (min raw.trim 150)
        let job : Job :=
          { jobTag := raw.jobTag, indexTag := raw.indexTag, lastOfIndex := raw.lastOfIndex = 1, recipe := raw.recipe,
            startMode := mode, armTimeout := raw.armTimeout, trim := trim }
        let entry := s.tracker.find? fun e => e.tag = raw.indexTag
        ((s.head h).mode = .disabled → refused 0x05) ∧
        ((s.head h).mode ≠ .disabled →
          (raw.jobTag ∈ (s.head h).tags → refused 0x07) ∧
          (raw.jobTag ∉ (s.head h).tags →
            (4 ≤ (s.head h).queue.length → refused 0x06) ∧
            ((s.head h).queue.length < 4 →
              (∀ e, entry = some e → e.closed = true → refused 0x0B) ∧
              (entry = none → 4 ≤ s.tracker.length → refused 0x0A) ∧
              let accepted (tracker : List IndexEntry) : Prop :=
                exec (.submitJob time tag head raw) s =
                  .next ((({ s.advance time with
                      heads := s.heads.set h { s.head h with queue := (s.head h).queue ++ [job] },
                      tracker := tracker } : State).retry).pushReply
                    ((if raw.trim = 0 ∨ trim = raw.trim then okReply else markedReply) 0x88 tag (byteField trim)))
              (∀ e, entry = some e → e.closed = false → accepted (s.tracker.map fun x =>
                if x.tag = raw.indexTag then
                  { e with outstanding := e.outstanding + 1, closed := raw.lastOfIndex = 1 }
                else x)) ∧
              (entry = none → s.tracker.length < 4 → accepted (s.tracker ++
                [{ tag := raw.indexTag, outstanding := 1, ended := 0, failed := 0,
                   closed := raw.lastOfIndex = 1 }])))))

/-- On a part not held in reset: a head number above 7 is refused with BAD_HEAD and a tag of 0 with BAD_FIELD. The first
queued job with the tag is removed, the others keep their order, and the tracker takes 1 from its index's
outstanding count. Where no queued job has the tag but the active joint has, the end cause CANCELLED is taken.
Otherwise NOT_FOUND. The tracker's part is spelled: the change is made to the index's entry; where the entry is then
closed with outstanding 0 it is removed and INDEX_DONE raised with its tag, ended and failed counts; else it stays
in its place, and every other entry stays. -/
def Obligations.CancelJobFindsQueuedThenActive : Prop :=
  ∀ (time : Nat) (tag : Byte) (head jobTag : Nat) (s : State), s.inReset = false →
    let c : Instr := .cancelJob time tag head jobTag
    let leaves (u : State) (index : Nat) : State :=
      match u.tracker.find? fun e => e.tag = index with
      | none => u
      | some e =>
        let k : IndexEntry := { e with outstanding := e.outstanding - 1 }
        if k.closed = true ∧ k.outstanding = 0 then
          ({ u with tracker := u.tracker.filter fun x => x.tag ≠ index } : State).raise
            (.indexDone k.tag k.ended k.failed)
        else { u with tracker := u.tracker.map fun x => if x.tag = index then k else x }
    (7 < head → exec c s = .next (s.answered time (refusalReply 0x09 tag 0x04))) ∧
    ∀ h, Head.ofNum? head = some h →
      (jobTag = 0 → exec c s = .next (s.answered time (refusalReply 0x09 tag 0x03))) ∧
      (jobTag ≠ 0 →
        (∀ before job after, (s.head h).queue = before ++ job :: after → (∀ j ∈ before, j.jobTag ≠ jobTag) →
          job.jobTag = jobTag →
          exec c s = .next ((leaves ((s.advance time).setHead h { s.head h with queue := before ++ after })
            job.indexTag).pushReply (okReply 0x89 tag [0x01]))) ∧
        ((∀ j ∈ (s.head h).queue, j.jobTag ≠ jobTag) →
          (∀ j, (s.head h).joint = some j → j.job.jobTag = jobTag →
            exec c s = .next (((s.advance time).takeCause h .cancelled).pushReply (okReply 0x89 tag [0x02]))) ∧
          ((∀ j, (s.head h).joint = some j → j.job.jobTag ≠ jobTag) →
            exec c s = .next (s.answered time (refusalReply 0x09 tag 0x08)))))

/-- On a part not held in reset, FLUSH_QUEUE of a head 0 to 7 is accepted in every head state: its queue becomes empty,
and the tracker takes the leaving jobs one after the other, oldest first, each taking 1 from its index's outstanding
count and raising INDEX_DONE at once where it completes a closed index. The active joint and everything else stay.
State.flushHead, which SET_HEAD and MOTION use too, is this flush. The reply carries the number of jobs removed;
where the queues are sound (at most 4 jobs, none on a DISABLED head) it is 0 to 4, and a DISABLED head gives 0 and
nothing changes. A head number above 7 is refused with BAD_HEAD. The tracker's part is spelled: the change is made
to the index's entry; where the entry is then closed with outstanding 0 it is removed and INDEX_DONE raised with its
tag, ended and failed counts; else it stays in its place, and every other entry stays. -/
def Obligations.FlushQueueEmptiesInOrder : Prop :=
  ∀ (time : Nat) (tag : Byte) (s : State), s.inReset = false →
    let leaves (u : State) (index : Nat) : State :=
      match u.tracker.find? fun e => e.tag = index with
      | none => u
      | some e =>
        let k : IndexEntry := { e with outstanding := e.outstanding - 1 }
        if k.closed = true ∧ k.outstanding = 0 then
          ({ u with tracker := u.tracker.filter fun x => x.tag ≠ index } : State).raise
            (.indexDone k.tag k.ended k.failed)
        else { u with tracker := u.tracker.map fun x => if x.tag = index then k else x }
    (∀ head, 7 < head →
      exec (.flushQueue time tag head) s = .next (s.answered time (refusalReply 0x0A tag 0x04))) ∧
    ∀ head h, Head.ofNum? head = some h →
      let emptied : State := (s.advance time).setHead h { s.head h with queue := [] }
      let t : State := (s.head h).queue.foldl (fun u j => leaves u j.indexTag) emptied
      exec (.flushQueue time tag head) s =
        .next (t.pushReply (okReply 0x8A tag (byteField (s.head h).queue.length))) ∧
      (s.advance time).flushHead h = t ∧
      (t.head h).queue = [] ∧ (t.head h).joint = (s.head h).joint ∧ (t.head h).mode = (s.head h).mode ∧
      (∀ k, k ≠ h → t.head k = s.head k) ∧
      (s.QueuesOk → (s.head h).queue.length ≤ 4 ∧ ((s.head h).mode = .disabled →
        exec (.flushQueue time tag head) s = .next (s.answered time (okReply 0x8A tag [0x00]))))

/-- On a part not held in reset, START_HEADS is accepted whatever the heads' states. For each named head that is ARMED
with an ON_START joint whose start seen is "no", start seen becomes "yes" and the start check is made; every other
head stays as it was. Stages, store, report, tracker and device are unchanged, and the reply lists the heads set, Hn
counted as 2^n. -/
def Obligations.StartHeadsSeesStart : Prop :=
  ∀ (time : Nat) (tag : Byte) (set : Byte) (s : State), s.inReset = false →
    let sees (h : Head) : Bool :=
      match (s.head h).joint with
      | some j => set.getLsbD h.num && decide ((s.head h).mode = .armed) && decide (j.job.startMode = .onStart) &&
          !j.startSeen
      | none => false
    ∃ t, exec (.startHeads time tag set) s = .next t ∧
      (∀ h, sees h = true → t.head h =
        (((s.advance time).modJoint h fun j => { j with startSeen := true }).startCheck h).head h) ∧
      (∀ h, sees h = false → t.head h = s.head h) ∧
      (∀ g, t.stage g = s.stage g) ∧ t.cell = s.cell ∧ t.store = s.store ∧ t.report = s.report ∧
      t.tracker = s.tracker ∧
      t.link = { s.link with replies := s.link.replies ++
        [okReply 0x8B tag (byteField (((Head.all.filter sees).map fun h => 2 ^ h.num).sum))] }

/-- For every head with an ARMED joint: where recipe loaded and start seen are "yes", CLAMP is closed, FLOW good, MOTION
not asserted, the device in RUN and the head's stage READY, the start check cancels the arm timer, records the start
time, enters TUNING, sets up the tap search (from the floor, or from the last locked tap under FROM_LAST where it
lies within floor and ceiling) and starts the lost timer one lost limit after the last sample taken for the joint,
or after the start where none was taken. Where any condition fails, and for every head that is not ARMED with a
joint, nothing changes. An unknown level forbids. -/
def Obligations.StartCheckStartsJoint : Prop :=
  ∀ (s : State) (h : Head),
    let r := s.head h
    let x := r.settings
    let ready (j : Joint) : Prop :=
      r.mode = .armed ∧ j.recipe.isSome ∧ j.startSeen = true ∧ r.line.clamp.taken = some .high ∧
        r.line.flow.taken = some .high ∧ s.cell.motion.taken = some .high ∧ s.cell.mode = .run ∧
        (s.stage x.stage).mode = .ready
    let fromLast : Option Nat :=
      match x.startMode, r.tuning.lastLock with
      | .fromLast, some l => if x.floor ≤ l.tap ∧ l.tap ≤ x.ceiling then some l.tap else none
      | _, _ => none
    (∀ j, r.joint = some j → ready j →
      s.startCheck h = s.setHead h
        { r with mode := .tuning, joint := some { j with armTimer := none, startTime := some s.now },
                 tuning := { r.tuning with lockState := .searching, currentTap := fromLast.getD x.floor,
                                           skipTap := fromLast },
                 temp := { r.temp with lostTimer := some (r.temp.lastTaken.getD s.now + x.lostLimit) } }) ∧
    ((∀ j, r.joint = some j → ¬ ready j) → s.startCheck h = s)

/-- On a part not held in reset: CLEAR_FAULT naming a head above 7 is refused with BAD_HEAD, and for a DISABLED head
with HEAD_DISABLED. Otherwise the fault count becomes 0 and, under the RUNNING drift policy, the drift count; a
FAULTED head enters IDLE and activation is re-tried; any other head keeps its state and its joint. -/
def Obligations.ClearFaultHeadClears : Prop :=
  ∀ (time : Nat) (tag : Byte) (s : State), s.inReset = false →
    (∀ head, 7 < head →
      exec (.clearFaultHead time tag head) s = .next (s.answered time (refusalReply 0x0F tag 0x04))) ∧
    ∀ head h, Head.ofNum? head = some h →
      let c : Instr := .clearFaultHead time tag head
      let drift := if (s.head h).settings.driftPolicy = .running then 0 else (s.head h).tuning.driftCount
      let cleared (m : HeadMode) : HeadRec :=
        { s.head h with faultCount := 0, mode := m, tuning := { (s.head h).tuning with driftCount := drift } }
      ((s.head h).mode = .disabled → exec c s = .next (s.answered time (refusalReply 0x0F tag 0x05))) ∧
      ((s.head h).mode = .faulted →
        exec c s = .next ((((s.advance time).setHead h (cleared .idle)).retry).pushReply (okReply 0x8F tag []))) ∧
      ((s.head h).mode ≠ .disabled → (s.head h).mode ≠ .faulted →
        exec c s = .next ((s.setHead h (cleared (s.head h).mode)).answered time (okReply 0x8F tag [])))

/-- For every head with an active joint, ending it with an outcome places one result as the newest, carrying the job's
tags, the head, the recipe number, the outcome, E_J, the peak, the run time from the start (0 where it never
started, at most 4,294,967,295), the drift count, the locked tap and load and the closed phase list; the tracker
takes the end, with outstanding one less, ended one more, and failed one more unless DONE, the last two up to
65,535; the fault count rises by 1 up to 8, becomes 0 or stays by the outcome's row; the head enters FAULTED for
COOLANT or when a raised count reaches the limit (HEAD_FAULT then raised), else IDLE; joint, lost timer, grace
timer, Tf, last taken, lock state and skip tap are cleared and its waiting fetch withdrawn. Activation is then re-
tried. In the closed phase list the last entry has the time since the phase's entry and the energy since it. The
tracker's part is spelled: the change is made to the index's entry; where the entry is then closed with outstanding
0 it is removed and INDEX_DONE raised with its tag, ended and failed counts; else it stays in its place, and every
other entry stays. -/
def Obligations.JointEndSteps : Prop :=
  ∀ (s : State) (h : Head) (o : JointOutcome) (j : Joint), (s.head h).joint = some j →
    let takes (u : State) (index : Nat) (change : IndexEntry → IndexEntry) : State :=
      match u.tracker.find? fun e => e.tag = index with
      | none => u
      | some e =>
        let k := change e
        if k.closed = true ∧ k.outstanding = 0 then
          ({ u with tracker := u.tracker.filter fun x => x.tag ≠ index } : State).raise
            (.indexDone k.tag k.ended k.failed)
        else { u with tracker := u.tracker.map fun x => if x.tag = index then k else x }
    let r := s.head h
    let raises := o ∈ [JointOutcome.noLock, .coupling, .tuneLimit, .overtemp, .overEnergy, .phaseTimeout, .sensorLost]
    let count := if raises then min (r.faultCount + 1) 8
      else if o = .done ∨ o = .lowEnergy then 0 else r.faultCount
    let atLimit := raises ∧ r.settings.faultLimit ≤ count
    let result : ResultRec :=
      { jobTag := j.job.jobTag, indexTag := j.job.indexTag, head := h, recipe := j.job.recipe, outcome := o,
        energy := j.energy, peak := j.peak,
        runTime := match j.startTime with | some t => min (s.now - t) 4294967295 | none => 0,
        drift := r.tuning.driftCount, lock := j.lock, phaseList := j.closedList s.now }
    let placed : State := takes (s.placeResult result) j.job.indexTag fun e =>
      { e with outstanding := e.outstanding - 1, ended := min (e.ended + 1) 65535,
               failed := if o = .done then e.failed else min (e.failed + 1) 65535 }
    let raised : State := if atLimit then placed.raise (.headFault h) else placed
    let ended : HeadRec :=
      { r with mode := if o = .coolant ∨ atLimit then .faulted else .idle, joint := none, faultCount := count,
               tuning := { r.tuning with lockState := .none, skipTap := none },
               temp := { r.temp with lostTimer := none, tf := none, lastTaken := none },
               line := { r.line with graceTimer := none } }
    s.endCore h o = { raised.setHead h ended with
      store := { s.store with waiting := s.store.waiting.filter fun f => f.head ≠ h } } ∧
    s.endJoint h o = (s.endCore h o).retry ∧
    (j.phaseList = [] → j.closedList s.now = []) ∧
    ∀ before x, j.phaseList = before ++ [x] → j.closedList s.now = before ++
      [{ x with duration := some (s.now - j.phaseEntry.getD s.now), energy := some (j.energy - j.entryEnergy) }]

/-- For every outcome and head: a cause that reaches a head state not listed for it changes nothing. In ARMED, TUNING
and HEATING it is recorded; ABORTED_ESTOP and STAGE_FAULT end the joint at once, as does any cause with no segment
in flight for the joint; with a segment in flight any other cause sends a cut order, sets the segment's cut flag and
the head enters STOPPING. In STOPPING ABORTED_ESTOP and STAGE_FAULT end the joint with the cause recorded first, and
any other cause changes nothing. -/
def Obligations.EndCauseByTable : Prop :=
  ∀ (s : State) (h : Head) (o : JointOutcome),
    let m := (s.head h).mode
    let g := (s.head h).settings.stage
    let listed : List HeadMode :=
      match o with
      | .cancelled => [.armed, .tuning, .heating, .stopping]
      | .expired => [.armed]
      | .recipeMissing => [.armed]
      | .noLock => [.tuning, .stopping]
      | .coupling => [.tuning, .stopping]
      | .tuneLimit => [.heating, .stopping]
      | .overtemp => [.tuning, .heating, .stopping]
      | .sensorLost => [.tuning, .heating, .stopping]
      | .overEnergy => [.tuning, .heating, .stopping]
      | .phaseTimeout => [.heating, .stopping]
      | .done => [.heating]
      | .lowEnergy => [.heating]
      | .clampLost => [.tuning, .heating, .stopping]
      | .coolant => [.tuning, .heating, .stopping]
      | .abortedMotion =>
        if s.cell.motionPolicy = .flush then [.armed, .tuning, .heating, .stopping] else [.tuning, .heating, .stopping]
      | .stageFault => [.tuning, .heating, .stopping]
      | .abortedEstop => [.tuning, .heating, .stopping]
    let recorded : State := s.modJoint h fun j => { j with cause := some o }
    (m ∉ listed → s.takeCause h o = s) ∧
    (m ∈ listed → m ≠ .stopping → o = .abortedEstop ∨ o = .stageFault → s.takeCause h o = recorded.endJoint h o) ∧
    (m ∈ listed → m ≠ .stopping → s.inFlight h = false → s.takeCause h o = recorded.endJoint h o) ∧
    (∀ seg, m ∈ listed → m ≠ .stopping → o ≠ .abortedEstop → o ≠ .stageFault → (s.stage g).segment = some seg →
      seg.head = h →
      s.takeCause h o = ((recorded.setStage g { s.stage g with
          segment := some { seg with cut := true }, orders := (s.stage g).orders ++ [.cut] }).modHead h
        fun r => { r with mode := .stopping })) ∧
    (m = .stopping → o ≠ .abortedEstop → o ≠ .stageFault → s.takeCause h o = s) ∧
    (∀ j first, m = .stopping → o = .abortedEstop ∨ o = .stageFault → (s.head h).joint = some j →
      j.cause = some first → s.takeCause h o = s.endJoint h first)

/-- A re-try of activation goes through H0 to H7 in ascending number and activates each head that is IDLE with a queued
job while, at the moment the re-try reaches it, the results held plus the active joints are below 32; each
activation counts at once for the heads after it. A joint that ends at once inside it ends by its seven steps, its
own re-try among them (log entry 24). While the store programs, so that every fetch waits, and where joints match
head states, an IDLE head with a queued job is therefore activated exactly when the results held, the active joints
and such heads of lower number are together fewer than 32: with two places free the two lowest of three. For every
state, after a re-try of activation every head is not IDLE, or has an empty queue, or the results held plus the
active joints have reached 32. The activation of a head takes its oldest queued job off the queue, makes its joint
(start seen at once under IMMEDIATE, the arm timer running where the job has one), puts the head in ARMED, sets the
drift count to 0 under PER_JOB, clears Tf and last taken, and requests the fetch of the job's recipe. The values of
the joint's fields that R10 and R32 leave open before the recipe load are the model's (log entry 35). -/
def Obligations.RetryLeavesNoneToActivate : Prop :=
  (∀ (s : State) (h : Head), (s.retry.head h).mode ≠ .idle ∨ (s.retry.head h).queue = [] ∨
    32 ≤ s.retry.report.results.length + s.retry.activeJoints) ∧
  (∀ s : State,
    let tried (u : State) (h : Head) : State :=
      if (u.head h).mode = .idle ∧ (u.head h).queue ≠ [] ∧ u.report.results.length + u.activeJoints < 32 then
        u.activate (fun k o v => v.endJoint k o) h
      else u
    s.retry = [Head.h0, .h1, .h2, .h3, .h4, .h5, .h6, .h7].foldl tried s) ∧
  (∀ (s : State) (h : Head), s.JointsOk → s.store.mode = .programming → (s.head h).mode = .idle →
    (s.head h).queue ≠ [] →
    let below := Head.all.filter fun k => k.num < h.num ∧ (s.head k).mode = .idle ∧ (s.head k).queue ≠ []
    (s.retry.head h).mode =
      if s.report.results.length + s.activeJoints + below.length < 32 then .armed else .idle) ∧
  ∀ (finish : Head → JointOutcome → State → State) (s : State) (h : Head) (job : Job) (rest : List Job),
    (s.head h).queue = job :: rest →
    let r := s.head h
    let joint : Joint :=
      { job := job, recipe := none, startSeen := job.startMode = .immediate,
        armTimer := if job.armTimeout = 0 then none else some (s.now + 1000 * job.armTimeout), startTime := none,
        cause := none, phase := none, phaseEntry := none, energy := 0, remainder := 0, entryEnergy := 0, peak := none,
        phaseList := [], lock := none, minEnergy := 0, ceiling := 0, thresholds := [], exitPending := false,
        tEntry := none, durationTimer := none, limitTimer := none, lastSetpoint := none, decision := none }
    s.activate finish h = State.takeFetch finish
      (s.setHead h { r with queue := rest, joint := some joint, mode := .armed,
                            tuning := { r.tuning with driftCount :=
                              if r.settings.driftPolicy = .perJob then 0 else r.tuning.driftCount },
                            temp := { r.temp with tf := none, lastTaken := none } })
      { head := h, entry := job.recipe }

/-- On a part not held in reset: FETCH_RESULTS returns the number and the oldest results, at most 4, removes them, sets
ATTN by what is left and re-tries activation; with none held it returns 0 and changes nothing. FETCH_EVENTS returns
the number, the lost count and the oldest events, at most 8, removes them, sets the lost count to 0 and ATTN by what
is left. A result is placed as the newest and asserts ATTN. An event raised with fewer than 16 held is placed as the
newest and asserts ATTN; with 16 held it is dropped and the lost count rises by 1 up to 255. The bytes of a result
record and of an event record of every kind are spelled field by field: high byte first; outcome codes 0x01 to 0x11
and event kinds 0x01 to 0x0F in the order of their tables; an absent peak, locked tap and load as 0; a phase
duration held at 65,535 ms. What a field carries for a number it does not hold is free (log entry 30); the fields
are spelled for numbers they hold. -/
def Obligations.FetchesRemoveOldest : Prop :=
  (∀ (time : Nat) (tag : Byte) (s : State), s.inReset = false →
      (s.report.results = [] → exec (.fetchResults time tag) s = .next (s.answered time (okReply 0x93 tag [0x00]))) ∧
      (s.report.results ≠ [] →
        let left := s.report.results.drop 4
        exec (.fetchResults time tag) s = .next
          ((({ s.advance time with report := { s.report with
              results := left, attn := !(left.isEmpty && s.report.events.isEmpty) } } : State).retry).pushReply
            (okReply 0x93 tag (byteField (min 4 s.report.results.length) ++
              (s.report.results.take 4).flatMap resultBytes)))) ∧
      let left := s.report.events.drop 8
      exec (.fetchEvents time tag) s = .next
        (({ s with report := { s.report with events := left, eventsLost := 0,
                                              attn := !(s.report.results.isEmpty && left.isEmpty) } } : State).answered time
          (okReply 0x94 tag (byteField (min 8 s.report.events.length) ++ byteField s.report.eventsLost ++
            (s.report.events.take 8).flatMap eventBytes)))) ∧
  (∀ (u : State) (x : ResultRec), u.placeResult x =
    { u with report := { u.report with results := u.report.results ++ [x], attn := true } }) ∧
  (∀ (u : State) (v : Event), u.raise v = { u with report :=
    if u.report.events.length < 16 then { u.report with events := u.report.events ++ [v], attn := true }
    else { u.report with eventsLost := min (u.report.eventsLost + 1) 255 } }) ∧
  (let b (v : Nat) : Byte := BitVec.ofNat 8 v
    let two (v : Nat) : List Byte := [b (v / 256), b v]
    let three (v : Nat) : List Byte := b (v / 65536) :: two v
    let four (v : Nat) : List Byte := b (v / 16777216) :: three v
    (∀ v, v < 256 → byteField v = [b v]) ∧ (∀ v, v < 65536 → numField 2 v = two v) ∧
    (∀ v, v < 16777216 → numField 3 v = three v) ∧ ∀ v, v < 4294967296 → numField 4 v = four v) ∧
  (∀ x : ResultRec,
    let outcome : Byte := match x.outcome with
      | .done => 0x01 | .lowEnergy => 0x02 | .cancelled => 0x03 | .expired => 0x04 | .recipeMissing => 0x05
      | .noLock => 0x06 | .coupling => 0x07 | .tuneLimit => 0x08 | .overtemp => 0x09 | .overEnergy => 0x0A
      | .phaseTimeout => 0x0B | .sensorLost => 0x0C | .clampLost => 0x0D | .coolant => 0x0E | .stageFault => 0x0F
      | .abortedEstop => 0x10 | .abortedMotion => 0x11
    let peak : Nat := match x.peak with | some t => t | none => 0
    let tuning : List Byte := match x.lock with
      | some l => [0x01] ++ byteField l.tap ++ numField 2 l.load
      | none => [0x00, 0x00, 0x00, 0x00]
    let entry (e : PhaseEntry) : List Byte :=
      byteField e.number ++ numField 2 (min (e.duration.getD 0) 65535) ++ numField 3 (e.energy.getD 0)
    resultBytes x = numField 2 x.jobTag ++ numField 2 x.indexTag ++ byteField x.head.num ++ byteField x.recipe ++
      [outcome] ++ numField 3 x.energy ++ numField 2 peak ++ numField 4 x.runTime ++ byteField x.drift ++ tuning ++
      byteField x.phaseList.length ++ x.phaseList.flatMap entry) ∧
  ∀ v : Event, eventBytes v = match v with
    | .indexDone tag ended failed => [0x01] ++ numField 2 tag ++ numField 2 ended ++ numField 2 failed
    | .headFault h => [0x02] ++ numField 2 h.num ++ [0, 0, 0, 0]
    | .frameAdopted g => [0x03] ++ numField 2 g.num ++ [0, 0, 0, 0]
    | .stageReady g => [0x04] ++ numField 2 g.num ++ [0, 0, 0, 0]
    | .stageFault g cause => [0x05] ++ numField 2 g.num ++ [0, 0, 0, match cause with
        | .trip => 0x01 | .busNotReady => 0x02 | .busLost => 0x03 | .linkTimeout => 0x04]
    | .loadShift h load => [0x06] ++ numField 2 h.num ++ numField 4 load
    | .coilDrift h tap => [0x07] ++ numField 2 h.num ++ numField 4 tap
    | .estop asserted => [0x08, 0, 0, 0, 0, 0, if asserted then 0x01 else 0x00]
    | .motion x => [0x09, 0, 0, 0, 0, 0, match x with
        | .released => 0x00 | .assertedNotInterlocked => 0x01 | .assertedInterlocked => 0x02]
    | .clampRise h => [0x0A] ++ numField 2 h.num ++ [0, 0, 0, 0]
    | .clampFall h => [0x0B] ++ numField 2 h.num ++ [0, 0, 0, 0]
    | .flowLow h => [0x0C] ++ numField 2 h.num ++ [0, 0, 0, 0]
    | .flowOk h => [0x0D] ++ numField 2 h.num ++ [0, 0, 0, 0]
    | .coolantFault h => [0x0E] ++ numField 2 h.num ++ [0, 0, 0, 0]
    | .storeDone bank op passed => [0x0F] ++ numField 2 bank.val ++ (match op with
        | .program entry => [0x01] ++ byteField entry.val
        | .erase => [0x02, 0]) ++ [0, if passed then 0x00 else 0x01]

/-- On a part not held in reset, for a stage number 0 or 1: POWER on of an OFF stage with ESTOP released sets the last
bus report to "not ready", sends bus-on, starts the settle timer and enters SETTLING; with ESTOP asserted or unknown
it is refused with INTERLOCK; in SETTLING and READY it changes nothing; in FAULT it is refused with BUSY. POWER off
of a SETTLING stage with no started member sends bus-off and enters OFF with timers and segment cleared, and of a
READY stage also stops its frame, adopting a pending one; with a started member it is refused with BUSY; in OFF and
FAULT it changes nothing. CLEAR_FAULT moves FAULT to OFF and keeps the cause record, marked cleared; in other states
it changes nothing. -/
def Obligations.PowerAndClearStage : Prop :=
  ∀ (time : Nat) (tag : Byte) (stage : Nat) (g : Stage) (s : State), s.inReset = false →
    Stage.ofNum? stage = some g →
    let r := s.stage g
    let now := max s.now time
    let unchanged (c : Instr) (kind : Byte) (data : List Byte) : Prop :=
      exec c s = .next (s.answered time (okReply kind tag data))
    let refused (c : Instr) (kind reason : Byte) : Prop :=
      exec c s = .next (s.answered time (refusalReply kind tag reason))
    let off : StageRec :=
      { r with mode := .off, settleTimer := none, segment := none, completionTimer := none,
               orders := r.orders ++ [.busOff] }
    (r.mode = .off → s.cell.estop.taken = some .high → exec (.powerOn time tag stage) s =
      .next ((s.setStage g { r with mode := .settling, busReady := false, settleTimer := some (now + r.settleTime),
                                    orders := r.orders ++ [.busOn] }).answered time (okReply 0x8E tag [0x02]))) ∧
    (r.mode = .off → s.cell.estop.taken ≠ some .high → refused (.powerOn time tag stage) 0x0E 0x0E) ∧
    (r.mode = .settling → unchanged (.powerOn time tag stage) 0x8E [0x02]) ∧
    (r.mode = .ready → unchanged (.powerOn time tag stage) 0x8E [0x03]) ∧
    (r.mode = .fault → refused (.powerOn time tag stage) 0x0E 0x09) ∧
    (r.mode = .off → unchanged (.powerOff time tag stage) 0x8E [0x01]) ∧
    (r.mode = .fault → unchanged (.powerOff time tag stage) 0x8E [0x04]) ∧
    (r.mode = .settling ∨ r.mode = .ready →
      (∃ h, (s.head h).settings.stage = g ∧ (s.head h).mode ∈ [HeadMode.tuning, .heating, .stopping]) →
      refused (.powerOff time tag stage) 0x0E 0x09) ∧
    ((∀ h, (s.head h).settings.stage = g → (s.head h).mode ∉ [HeadMode.tuning, .heating, .stopping]) →
      (r.mode = .settling →
        exec (.powerOff time tag stage) s = .next ((s.setStage g off).answered time (okReply 0x8E tag [0x01]))) ∧
      (r.mode = .ready → r.pendingFrame = none →
        exec (.powerOff time tag stage) s =
          .next ((s.setStage g { off with running := none, deferred := false }).answered time
            (okReply 0x8E tag [0x01]))) ∧
      (∀ f, r.mode = .ready → r.pendingFrame = some f →
        exec (.powerOff time tag stage) s =
          .next (((s.setStage g { off with running := none, deferred := false, active := some f,
                                           pendingFrame := none }).raise (.frameAdopted g)).answered time
            (okReply 0x8E tag [0x01])))) ∧
    (r.mode = .fault → exec (.clearFaultStage time tag stage) s =
      .next ((s.setStage g { r with mode := .off, fault := r.fault.map fun c => { c with cleared := true } }).answered
        time (okReply 0x8F tag []))) ∧
    (r.mode ≠ .fault → unchanged (.clearFaultStage time tag stage) 0x8F [])

/-- On a part not held in reset: a bus report is recorded in every stage state, and "not ready" in READY faults the
stage with BUS_LOST; a trip report faults a SETTLING or READY stage with TRIP and its code and is discarded in OFF
and FAULT; a message that fails its integrity check changes nothing. A stage that enters FAULT holds the cause
record (cause, code, time, not cleared), no segment and no completion or settle timer, its matrix position as before
and one bus-off order more; it runs no frame if it was READY; and where joints match head states, no member of it is
left in TUNING, HEATING or STOPPING. The entry's steps in their order: cause, segment, timers and bus-off order; a
stage that was READY stops its frame, drops a deferred decision and adopts a pending frame with FRAME_ADOPTED; then
for H0 to H7 in turn a member's joint ends, in TUNING and HEATING with STAGE_FAULT as its recorded cause and
outcome, in STOPPING with the cause recorded first; and last the STAGE_FAULT event with stage and cause is raised. A
joint's end is JointEndSteps, an event's raising FetchesRemoveOldest. The order of FRAME_ADOPTED before the events
of the joints' ends is log entry 34. -/
def Obligations.ReportsThatFaultStage : Prop :=
  ∀ (time : Nat) (g : Stage) (s : State), s.inReset = false →
    (∀ ready, exec (.busReport time g false ready) s = .next { s with now := max s.now time }) ∧
    (∀ ready, (s.stage g).mode ≠ .ready ∨ ready = true →
      exec (.busReport time g true ready) s =
        .next ((s.advance time).setStage g { s.stage g with busReady := ready })) ∧
    ((s.stage g).mode = .ready → exec (.busReport time g true false) s =
      .next (((s.advance time).setStage g { s.stage g with busReady := false }).enterFault g .busLost 0)) ∧
    (∀ code, exec (.tripReport time g false code) s = .next { s with now := max s.now time }) ∧
    (∀ code, (s.stage g).mode = .settling ∨ (s.stage g).mode = .ready →
      exec (.tripReport time g true code) s = .next ((s.advance time).enterFault g .trip code)) ∧
    (∀ code, (s.stage g).mode = .off ∨ (s.stage g).mode = .fault →
      exec (.tripReport time g true code) s = .next { s with now := max s.now time }) ∧
    ∀ (cause : FaultCause) (code : Nat),
      let t := s.enterFault g cause code
      (t.stage g).mode = .fault ∧ (t.stage g).segment = none ∧ (t.stage g).completionTimer = none ∧
      (t.stage g).settleTimer = none ∧ (t.stage g).matrix = (s.stage g).matrix ∧
      (t.stage g).fault = some { cause := cause, tripCode := code, time := s.now, cleared := false } ∧
      (t.stage g).orders = (s.stage g).orders ++ [.busOff] ∧
      ((s.stage g).mode = .ready → (t.stage g).running = none) ∧
      (s.JointsOk → ∀ h, (t.head h).settings.stage = g →
        (t.head h).mode ∉ [HeadMode.tuning, .heating, .stopping]) ∧
      let struck : StageRec :=
        { s.stage g with mode := .fault, segment := none, completionTimer := none, settleTimer := none,
                         fault := some { cause := cause, tripCode := code, time := s.now, cleared := false },
                         orders := (s.stage g).orders ++ [.busOff] }
      let stopped : StageRec := { struck with running := none, deferred := false }
      let ends (u : State) (h : Head) : State :=
        if (u.head h).settings.stage = g then
          if (u.head h).mode = .tuning ∨ (u.head h).mode = .heating then
            (u.modJoint h fun j => { j with cause := some .stageFault }).endJoint h .stageFault
          else if (u.head h).mode = .stopping then
            match (u.head h).joint.bind Joint.cause with
            | some first => u.endJoint h first
            | none => u
          else u
        else u
      let faulted (u : State) : Prop := t = (Head.all.foldl ends u).raise (.stageFault g cause)
      ((s.stage g).mode ≠ .ready → faulted (s.setStage g struck)) ∧
      ((s.stage g).mode = .ready → (s.stage g).pendingFrame = none → faulted (s.setStage g stopped)) ∧
      ∀ f, (s.stage g).mode = .ready → (s.stage g).pendingFrame = some f → faulted
        ((s.setStage g { stopped with active := some f, pendingFrame := none }).raise (.frameAdopted g))

/-- On a part not held in reset: the settle timer's expiry with the last bus report "ready" enters READY with the settle
timer stopped and matrix position, pointer, last-served record and last decision cleared, and STAGE_READY is the
only event raised. With an active frame its first live slot starts at that moment and its decision is made (deferred
where a segment is in flight), and every member of the stage is start-checked, the two in the order the model leaves
free (log entry 7). With no active frame the members are start-checked and nothing else changes. With "not ready"
the stage enters FAULT with BUS_NOT_READY. The completion timer's expiry faults the stage with LINK_TIMEOUT. -/
def Obligations.SettleAndCompletionExpiry : Prop :=
  ∀ (g : Stage) (e : Nat) (s : State), s.inReset = false →
    let r := s.stage g
    let now : State := s.advance e
    (r.settleTimer = some e → r.busReady = true →
      let cleared : StageRec := { r with mode := .ready, settleTimer := none, matrix := none, pointer := none,
                                         lastServed := none, lastDecision := none }
      let ready : State := (({ now with choices := s.choices + 1 } : State).setStage g cleared).raise (.stageReady g)
      let checks (u : State) : State :=
        (Head.all.filter fun h => (s.head h).settings.stage = g).foldl State.startCheck u
      (r.active = none → exec (.settleTimerExpiry g) s = .next (checks ready) ∧ (checks ready).stage g = cleared ∧
        ∀ h, (checks ready).head h =
          if (s.head h).settings.stage = g then ((now.setStage g { r with mode := .ready }).startCheck h).head h
          else s.head h) ∧
      (∀ frame n x, r.active = some frame → firstLive frame n x →
        let begins (u : State) : State :=
          let k : StageRec := { u.stage g with running := some (runningOf n x (max s.now e)) }
          if r.segment.isSome then u.setStage g { k with deferred := true } else (u.setStage g k).decideSlot g
        exec (.settleTimerExpiry g) s =
          .next (if Config.startChecksFirst s.choices then begins (checks ready) else checks (begins ready))) ∧
      ∀ t, exec (.settleTimerExpiry g) s = .next t → (t.stage g).mode = .ready ∧ (t.stage g).settleTimer = none ∧
        t.report = s.report.offer (.stageReady g)) ∧
    (r.settleTimer = some e → r.busReady = false →
      exec (.settleTimerExpiry g) s =
        .next (({ now with choices := s.choices + 1 } : State).enterFault g .busNotReady 0)) ∧
    (r.completionTimer = some e →
      exec (.completionTimerExpiry g) s = .next (now.enterFault g .linkTimeout 0))

/-- On a part not held in reset. HOLD is accepted in every device mode; from RUN the mode becomes HOLD, otherwise
nothing changes, and outside RUN no head wants power and no joint can start. RESUME from HOLD with a known ESTOP
level enters RUN and start-checks the heads; from HOLD with the level unknown, and from INTERLOCKED, it is refused
with INTERLOCK; in RUN it changes nothing. CLEAR_FAULT for the device from INTERLOCKED with ESTOP and MOTION
released enters HOLD with no causes; with either asserted or unknown it is refused with INTERLOCK; in RUN and HOLD
it changes nothing. The replies of HOLD and RESUME carry the mode after the request. -/
def Obligations.HoldResumeAndClearByMode : Prop :=
  ∀ (time : Nat) (tag : Byte) (s : State), s.inReset = false →
    let mode (m : DeviceMode) : State := { s with cell := { s.cell with mode := m } }
    (s.cell.mode = .run → exec (.hold time tag) s = .next ((mode .hold).answered time (okReply 0x8C tag [0x02]))) ∧
    (s.cell.mode = .hold → exec (.hold time tag) s = .next (s.answered time (okReply 0x8C tag [0x02]))) ∧
    (s.cell.mode = .interlocked → exec (.hold time tag) s = .next (s.answered time (okReply 0x8C tag [0x03]))) ∧
    (s.cell.mode ≠ .run → ∀ h, s.wantsPower h = false ∧ s.startCheck h = s) ∧
    (s.cell.mode = .run → exec (.resume time tag) s = .next (s.answered time (okReply 0x8D tag [0x01]))) ∧
    (s.cell.mode = .hold → s.cell.estop.taken ≠ none →
      exec (.resume time tag) s =
        .next (((State.advance (mode .run) time).startChecks Head.all).pushReply (okReply 0x8D tag [0x01]))) ∧
    (s.cell.mode = .hold → s.cell.estop.taken = none →
      exec (.resume time tag) s = .next (s.answered time (refusalReply 0x0D tag 0x0E))) ∧
    (s.cell.mode = .interlocked →
      exec (.resume time tag) s = .next (s.answered time (refusalReply 0x0D tag 0x0E))) ∧
    (s.cell.mode = .interlocked → s.cell.estop.taken = some .high ∧ s.cell.motion.taken = some .high →
      exec (.clearFaultDevice time tag) s =
        .next (({ s with cell := { s.cell with mode := .hold, causeEstop := false,
                                               causeMotion := false } } : State).answered time
          (okReply 0x8F tag []))) ∧
    (s.cell.mode = .interlocked → ¬ (s.cell.estop.taken = some .high ∧ s.cell.motion.taken = some .high) →
      exec (.clearFaultDevice time tag) s = .next (s.answered time (refusalReply 0x0F tag 0x0E))) ∧
    (s.cell.mode ≠ .interlocked →
      exec (.clearFaultDevice time tag) s = .next (s.answered time (okReply 0x8F tag [])))

/-- For every line input on a part not held in reset: a change of the pin stores the level and starts the filter timer
to expire 2 ms later, a running one being started again; the taken level and every other input stay, and nothing
acts. A filter that expires while the level is unknown takes the pin's level and stops, raising no event and
touching no head but its own input, except an ESTOP that stands asserted, which enters INTERLOCKED with ESTOP among
the causes. The KEY filter's expiry with a known level takes the pin's level and nothing else. That an initial level
makes no start check and touches no head but its own input is the model's reading of R153 and R13 (log entry 18),
and the takes carry the filter's expiry time (the clock is the model's, log entry 1). -/
def Obligations.InputChangeRestartsFilter : Prop :=
  ∀ (time : Nat) (i : LineInput) (level : Level) (s : State), s.inReset = false →
    ((s.input i).pin ≠ level →
      exec (.lineInputChange time i level) s =
        .next ((s.advance time).setInput i
          { pin := level, taken := (s.input i).taken, filter := some (max s.now time + 2) })) ∧
    (∀ e, (s.input i).taken = none → (s.input i).filter = some e →
      let known : Input := { pin := (s.input i).pin, taken := some (s.input i).pin, filter := none }
      (i ≠ .estop ∨ (s.input i).pin = .high →
        exec (.initialLevelTaken i) s = .next ((s.advance e).setInput i known)) ∧
      (i = .estop → (s.input i).pin = .low → ∃ t, exec (.initialLevelTaken i) s = .next t ∧
        t.cell = { s.cell with mode := .interlocked, causeEstop := true, estop := known })) ∧
    (∀ e l, s.cell.key.taken = some l → s.cell.key.filter = some e →
      exec .keyChange s = .next ((s.advance e).setInput .key
        { pin := s.cell.key.pin, taken := some s.cell.key.pin, filter := none })) ∧
    ∀ (k : LineInput) (x : Input), (s.setInput i x).input i = x ∧ (k ≠ i → (s.setInput i x).input k = s.input k)

/-- On a part not held in reset, with the ESTOP filter running out on a change of the level. An assertion enters
INTERLOCKED from every mode and adds ESTOP to the causes; every SETTLING or READY stage is OFF with its segment
dropped and the bus-off order the only order sent; OFF and FAULT stages stay; no head is left in TUNING, HEATING or
STOPPING in a state whose joints match its head states; ARMED, FAULTED and DISABLED heads stay as they were; the
ESTOP event is offered to the event queue. A release raises the ESTOP event "released" and changes nothing else. -/
def Obligations.EstopTakenInterlocks : Prop :=
  ∀ (e : Nat) (s : State), s.inReset = false → s.cell.estop.filter = some e →
    let known : Input := { pin := s.cell.estop.pin, taken := some s.cell.estop.pin, filter := none }
    (s.cell.estop.pin = .low → s.cell.estop.taken = some .high →
      ∃ t, exec .estopAsserted s = .next t ∧
        t.cell = { s.cell with mode := .interlocked, causeEstop := true, estop := known } ∧
        (∀ g, ((s.stage g).mode = .settling ∨ (s.stage g).mode = .ready →
            (t.stage g).mode = .off ∧ (t.stage g).segment = none ∧ (t.stage g).completionTimer = none ∧
            (t.stage g).settleTimer = none) ∧
          ((s.stage g).mode = .ready → (t.stage g).running = none ∧ (t.stage g).deferred = false) ∧
          ((s.stage g).mode = .settling ∨ (s.stage g).mode = .ready →
            (t.stage g).orders = (s.stage g).orders ++ [.busOff]) ∧
          ((s.stage g).mode = .off ∨ (s.stage g).mode = .fault → t.stage g = s.stage g)) ∧
        (s.JointsOk → ∀ h,
          (t.head h).mode ∉ [HeadMode.tuning, .heating, .stopping] ∧
          ((s.head h).mode = .armed ∨ (s.head h).mode = .faulted ∨ (s.head h).mode = .disabled →
            t.head h = s.head h)) ∧
        (.estop true ∈ t.report.events ∨ 16 ≤ t.report.events.length)) ∧
    (s.cell.estop.pin = .high → s.cell.estop.taken = some .low →
      exec .estopReleased s =
        .next (((s.advance e).setInput .estop known).raise (.estop false)))

/-- On a part not held in reset, with the MOTION filter running out on a change of the level. Asserted with no head in
TUNING, HEATING or STOPPING: the event "asserted, not interlocked", MOTION joins the causes of an INTERLOCKED device
alone, and no joint, queue or stage is touched. Asserted with such a head: INTERLOCKED with MOTION among the causes,
then the event, then under FLUSH every head's queue is flushed, H0 to H7 in turn, and then ABORTED_MOTION is taken
for every started head, under FLUSH for the ARMED ones too, in ascending head number. Released: the event "released"
and the start check of every head. -/
def Obligations.MotionTakenByStartedHeads : Prop :=
  ∀ (e : Nat) (s : State), s.inReset = false → s.cell.motion.filter = some e →
    let taken : State := (s.advance e).setInput .motion
      { pin := s.cell.motion.pin, taken := some s.cell.motion.pin, filter := none }
    let started (m : HeadMode) : Prop := m ∈ [HeadMode.tuning, .heating, .stopping]
    let flush := s.cell.motionPolicy = .flush
    (s.cell.motion.pin = .low → s.cell.motion.taken = some .high →
      ((∀ h, ¬ started (s.head h).mode) →
        exec .motionAsserted s =
          .next (({ taken with cell := { taken.cell with
              causeMotion := s.cell.causeMotion || decide (s.cell.mode = .interlocked) } } : State).raise
            (.motion .assertedNotInterlocked))) ∧
      ((∃ h, started (s.head h).mode) →
        let locked : State :=
          ({ taken with cell := { taken.cell with mode := .interlocked, causeMotion := true } } : State).raise
            (.motion .assertedInterlocked)
        let emptied : State := if flush then Head.all.foldl State.flushHead locked else locked
        exec .motionAsserted s = .next (Head.all.foldl
          (fun u h => if started (u.head h).mode ∨ (flush ∧ (u.head h).mode = .armed)
            then u.takeCause h .abortedMotion else u) emptied))) ∧
    (s.cell.motion.pin = .high → s.cell.motion.taken = some .low →
      exec .motionReleased s = .next ((taken.raise (.motion .released)).startChecks Head.all))

/-- On a part not held in reset, with the CLAMP filter of a head running out on a change of the level. A falling edge
raises CLAMP_LOST at the job manager, and then CLAMP_FALL where the clamp edge report is FALL or BOTH. A rising edge
sets start seen of an ARMED joint with start mode ON_CLAMP and of no other, makes the head's start check, and then
raises CLAMP_RISE where the report is RISE or BOTH. This is so in every head state and device mode. -/
def Obligations.ClampEdgesAct : Prop :=
  ∀ (e : Nat) (h : Head) (s : State), s.inReset = false → (s.head h).line.clamp.filter = some e →
    let x := (s.head h).line.clamp
    let report := (s.head h).settings.clampReport
    let taken : State := (s.advance e).setInput (.clamp h) { pin := x.pin, taken := some x.pin, filter := none }
    let shown (b : Prop) [Decidable b] (v : Event) (u : State) : State := if b then u.raise v else u
    (x.pin = .low → x.taken = some .high →
      exec (.clampFallingEdge h) s = .next
        (shown (report = .fall ∨ report = .both) (.clampFall h) (taken.takeCause h .clampLost))) ∧
    (x.pin = .high → x.taken = some .low →
      let seen (j : Joint) : Joint :=
        if (s.head h).mode = .armed ∧ j.job.startMode = .onClamp then { j with startSeen := true } else j
      exec (.clampRisingEdge h) s = .next
        (shown (report = .rise ∨ report = .both) (.clampRise h) ((taken.modJoint h seen).startCheck h)))

/-- On a part not held in reset, with the FLOW filter of a head running out on a change of the level. A falling edge
raises FLOW_LOW in every head state, and in TUNING and HEATING starts the grace timer for the head's flow grace time
from the take; in the other states it changes nothing more. A rising edge raises FLOW_OK, stops the grace timer and
makes the start check. The grace timer's expiry takes the cause COOLANT at the job manager and then raises
COOLANT_FAULT, the timer being stopped; in STOPPING nothing but that event and the timer changes. -/
def Obligations.FlowEdgesAndGrace : Prop :=
  ∀ (e : Nat) (h : Head) (s : State), s.inReset = false →
    let r := s.head h
    let x := r.line.flow
    let known : Input := { pin := x.pin, taken := some x.pin, filter := none }
    let taken (grace : Option Nat) : State :=
      (s.advance e).setHead h { r with line := { r.line with flow := known, graceTimer := grace } }
    let stopped : State := (s.advance e).setHead h { r with line := { r.line with graceTimer := none } }
    (x.filter = some e → x.pin = .low → x.taken = some .high →
      (r.mode = .tuning ∨ r.mode = .heating →
        exec (.flowFallingEdge h) s =
          .next ((taken (some (max s.now e + r.settings.flowGrace))).raise (.flowLow h))) ∧
      (r.mode ≠ .tuning → r.mode ≠ .heating →
        exec (.flowFallingEdge h) s = .next ((taken r.line.graceTimer).raise (.flowLow h)))) ∧
    (x.filter = some e → x.pin = .high → x.taken = some .low →
      exec (.flowRisingEdge h) s = .next (((taken none).raise (.flowOk h)).startCheck h)) ∧
    (r.line.graceTimer = some e →
      exec (.flowGraceTimerExpiry h) s = .next ((stopped.takeCause h .coolant).raise (.coolantFault h)) ∧
      (r.mode = .stopping →
        exec (.flowGraceTimerExpiry h) s = .next (stopped.raise (.coolantFault h))))

/-- On a part not held in reset, for a head with an active joint. The arm timer's expiry ends an ARMED joint at once
with EXPIRED, its recipe loaded or not, in every state whose segments in flight are for started joints. The time
limit timer's expiry takes PHASE_TIMEOUT and the lost timer's SENSOR_LOST: with no segment in flight for the joint
the joint of a HEATING head ends at once (for SENSOR_LOST also of a TUNING head); with one the head enters STOPPING
with a cut order; in STOPPING nothing but the timer changes. In each case the timer is stopped. -/
def Obligations.JointTimersRaiseCauses : Prop :=
  ∀ (e : Nat) (h : Head) (j : Joint) (s : State), s.inReset = false → (s.head h).joint = some j →
    let r := s.head h
    let g := r.settings.stage
    let holds (k : Joint) (lost : Option Nat) : State :=
      (s.advance e).setHead h { r with joint := some k, temp := { r.temp with lostTimer := lost } }
    let caused (k : Joint) (o : JointOutcome) : Joint := { k with cause := some o }
    let halted (u : State) (seg : Segment) : State :=
      (u.setStage g { s.stage g with
        segment := some { seg with cut := true }, orders := (s.stage g).orders ++ [.cut] }).modHead h
          fun q => { q with mode := .stopping }
    (j.armTimer = some e → r.mode = .armed → s.FlightOk →
      exec (.armTimerExpiry h) s =
        .next ((holds (caused { j with armTimer := none } .expired) r.temp.lostTimer).endJoint h .expired)) ∧
    (j.limitTimer = some e →
      let k := { j with limitTimer := none }
      (r.mode = .heating → s.inFlight h = false →
        exec (.timeLimitExpiry h) s =
          .next ((holds (caused k .phaseTimeout) r.temp.lostTimer).endJoint h .phaseTimeout)) ∧
      (∀ seg, r.mode = .heating → (s.stage g).segment = some seg → seg.head = h →
        exec (.timeLimitExpiry h) s = .next (halted (holds (caused k .phaseTimeout) r.temp.lostTimer) seg)) ∧
      (r.mode = .stopping → exec (.timeLimitExpiry h) s = .next (holds k r.temp.lostTimer))) ∧
    (r.temp.lostTimer = some e →
      (r.mode = .tuning ∨ r.mode = .heating → s.inFlight h = false →
        exec (.lostTimerExpiry h) s = .next ((holds (caused j .sensorLost) none).endJoint h .sensorLost)) ∧
      (∀ seg, r.mode = .tuning ∨ r.mode = .heating → (s.stage g).segment = some seg → seg.head = h →
        exec (.lostTimerExpiry h) s = .next (halted (holds (caused j .sensorLost) none) seg)) ∧
      (r.mode = .stopping → exec (.lostTimerExpiry h) s = .next (holds j none)))

/-- On a part not held in reset, for a HEATING head whose joint's duration timer runs. With a segment in flight for the
joint, exit pending becomes "yes" and the time limit timer is stopped. With none the phase closes with its duration
and energy and the joint moves on: RAMP phases whose exit holds at the present Tf are entered and left at the same
moment, each with duration and energy 0 in the phase list and Tf as T_entry; the first phase that does not end so
becomes the current phase with its timers started, its entry open and, for a RAMP phase, T_entry set to Tf where
there is one; and where none is left the joint ends with DONE when E_J reaches the trimmed minimum and with
LOW_ENERGY when not. In STOPPING the expiry stops the timer and changes nothing else. -/
def Obligations.DurationExpiryExitsPhase : Prop :=
  ∀ (e : Nat) (h : Head) (j : Joint) (s : State), s.inReset = false → (s.head h).joint = some j →
    j.durationTimer = some e →
    let now := max s.now e
    let holds (k : Joint) : State := (s.advance e).setHead h { s.head h with joint := some k }
    ((s.head h).mode = .stopping →
      exec (.durationTimerExpiry h) s = .next (holds { j with durationTimer := none })) ∧
    ((s.head h).mode = .heating → s.inFlight h = true →
      exec (.durationTimerExpiry h) s =
        .next (holds { j with durationTimer := none, exitPending := true, limitTimer := none })) ∧
    ((s.head h).mode = .heating → s.inFlight h = false → ∀ rec n, j.recipe = some rec → j.phase = some n →
      (∃ k o, (j.closedAt now).movesOn rec now (s.head h).temp.tf n k o) ∧
      ∀ k o, (j.closedAt now).movesOn rec now (s.head h).temp.tf n k o →
        exec (.durationTimerExpiry h) s = .next (match o with
          | none => holds k
          | some o => (holds { k with cause := some o }).endJoint h o))

/-- On a part not held in reset. A sample on a disabled channel changes nothing. A SENSOR_FAULT sample, and one that
fails its integrity check, sets the last received kind and time alone. A taken sample, limited to 150 to 1,100 °C
with the under or over flag set, sets last received and last value with the flags; on a head with no joint nothing
else; with an ARMED or STOPPING joint it also sets last taken, moves Tf by the filter (the value itself where Tf is
absent), raises the peak and restarts a running lost timer. In TUNING and HEATING a Tf above the recipe's ceiling
then takes OVERTEMP; in TUNING with Tf at or below it nothing more happens; in HEATING a RAMP phase takes T_entry
from its first sample, and exits where Tf reaches T_end less the exit band, whether or not a segment is in flight.
The joint then moves on through phases of no length to the phase entered, or the recipe ends with DONE or
LOW_ENERGY: at once with no segment in flight, and with one through a cut order and STOPPING. The filter quotient
rounds a half away from zero. -/
def Obligations.SampleActsByState : Prop :=
  (∀ (k : Nat) (t v : Nat), 1 ≤ k →
    (t ≤ v → filterTf k (some t) v = t + (v - t + 2 ^ (k - 1)) / 2 ^ k) ∧
    (v ≤ t → filterTf k (some t) v = t - (t - v + 2 ^ (k - 1)) / 2 ^ k)) ∧
  (∀ (t v : Nat), filterTf 0 (some t) v = v) ∧
  ∀ (time : Nat) (h : Head) (s : State), s.inReset = false →
    let r := s.head h
    let now := max s.now time
    let depth (j : Joint) : Nat := match j.recipe with | some rec => rec.filterDepth | none => 0
    let tf (j : Joint) (v : Nat) : Nat := match r.temp.tf with | some t => filterTf (depth j) (some t) v | none => v
    let received (k : Sample.Kind) : TempRec := { r.temp with lastReceived := some (k, now) }
    let last (k : Sample.Kind) (v : Nat) (isUnder isOver : Bool) : TempRec :=
      { received k with lastValue := some (v, now), underFlag := isUnder, overFlag := isOver }
    let taken (j : Joint) (k : Sample.Kind) (v : Nat) (isUnder isOver : Bool) : State :=
      (s.advance time).setHead h { r with
        joint := some { j with peak := some (match j.peak with | some p => max p (tf j v) | none => tf j v) },
        temp := { last k v isUnder isOver with
          tf := some (tf j v), lastTaken := some now,
          lostTimer := r.temp.lostTimer.map fun _ => now + r.settings.lostLimit } }
    let limited (m : Sample) (k : Sample.Kind) (v : Nat) (isUnder isOver : Bool) : Prop :=
      (m = .underRange ∧ k = .underRange ∧ v = 150 ∧ isUnder = true ∧ isOver = false) ∨
      (m = .overRange ∧ k = .overRange ∧ v = 1100 ∧ isUnder = false ∧ isOver = true) ∨
      ∃ c, m = .reading c ∧ k = .reading ∧ v = max 150 (min c 1100) ∧ isUnder = decide (c < 150) ∧
        isOver = decide (1100 < c)
    (∀ intact m, r.settings.channelEnabled = false →
      exec (.pyrometerSample time h intact m) s = .next { s with now := now }) ∧
    (∀ intact m, r.settings.channelEnabled = true → intact = false ∨ m = .sensorFault →
      exec (.pyrometerSample time h intact m) s =
        .next ((s.advance time).setHead h { r with temp := received .sensorFault })) ∧
    ∀ m k v isUnder isOver, r.settings.channelEnabled = true → limited m k v isUnder isOver →
      (r.joint = none → exec (.pyrometerSample time h true m) s =
        .next ((s.advance time).setHead h { r with temp := last k v isUnder isOver })) ∧
      (∀ j, r.joint = some j → r.mode = .armed ∨ r.mode = .stopping →
        exec (.pyrometerSample time h true m) s = .next (taken j k v isUnder isOver)) ∧
      (∀ j rec, r.joint = some j → j.recipe = some rec →
        (r.mode = .tuning ∨ r.mode = .heating → rec.overtempCeiling < tf j v →
          exec (.pyrometerSample time h true m) s = .next ((taken j k v isUnder isOver).takeCause h .overtemp)) ∧
        (tf j v ≤ rec.overtempCeiling →
          (r.mode = .tuning → exec (.pyrometerSample time h true m) s = .next (taken j k v isUnder isOver)) ∧
          ∀ n p, r.mode = .heating → j.phase = some n → rec.phases[n - 1]? = some p →
            ((∀ rate f, p ≠ .ramp rate f) →
              exec (.pyrometerSample time h true m) s = .next (taken j k v isUnder isOver)) ∧
            ∀ rate f, p = .ramp rate f →
              let x : Joint := { j with tEntry := some (j.tEntry.getD (tf j v)) }
              (tf j v + rec.exitBand < f.tEnd →
                exec (.pyrometerSample time h true m) s = .next (taken x k v isUnder isOver)) ∧
              (f.tEnd ≤ tf j v + rec.exitBand →
                ∀ y o, (x.closedAt now).movesOn rec now (some (tf j v)) n y o →
                  (o = none → exec (.pyrometerSample time h true m) s = .next (taken y k v isUnder isOver)) ∧
                  ∀ raised, o = some raised →
                    let ending := taken { y with cause := some raised } k v isUnder isOver
                    (s.inFlight h = false →
                      exec (.pyrometerSample time h true m) s = .next (ending.endJoint h raised)) ∧
                    ∀ seg, (s.stage r.settings.stage).segment = some seg → seg.head = h →
                      exec (.pyrometerSample time h true m) s = .next
                        ((ending.setStage r.settings.stage { s.stage r.settings.stage with
                            segment := some { seg with cut := true },
                            orders := (s.stage r.settings.stage).orders ++ [.cut] }).modHead h
                          fun q => { q with mode := .stopping }))))

/-- On a part not held in reset: a report that fails the integrity check changes nothing, and a report with no segment
in flight changes nothing of the part (the model counts a choice it does not use, log entry 26). A report of a
STOPPING joint's segment drops the segment, counts the energy (P_avg up to 16,000 W times the on-time up to the
ordered duration, E_J held at 999,999 J with remainder 0) and ends the joint with its recorded cause; then the trip
mark faults the stage with cause TRIP and code 0, and without it a decision deferred to the report is made. -/
def Obligations.SegmentReportCases : Prop :=
  ∀ (time : Nat) (g : Stage) (rep : SegReport) (s : State), s.inReset = false →
    let chosen : State := { s with now := max s.now time, choices := s.choices + 1 }
    exec (.segmentReport time g false rep) s = .next { s with now := max s.now time } ∧
    ((s.stage g).segment = none → exec (.segmentReport time g true rep) s = .next chosen) ∧
    ∀ seg h j o, (s.stage g).segment = some seg → seg.head = h → (s.head h).mode = .stopping →
      (s.head h).joint = some j → j.cause = some o →
      let total := j.remainder + min rep.power 16000 * min rep.onTime seg.duration
      let counted : Joint :=
        if 999999 < j.energy + total / 1000 then { j with energy := 999999, remainder := 0 }
        else { j with energy := j.energy + total / 1000, remainder := total % 1000 }
      let free : State := (chosen.setStage g { s.stage g with segment := none, completionTimer := none }).setHead h
        { s.head h with joint := some counted }
      exec (.segmentReport time g true rep) s =
        .next ((free.endJoint h o).afterReport g rep.trip (s.stage g).deferred)

/-- On a part not held in reset, for a report of a HEATING joint's segment: the segment is dropped and the energy
counted. The heat law unit raises OVER_ENERGY where the trimmed ceiling is met; else, where the trimmed threshold of
a SOAK ENERGY phase is met or the exit is pending, the phase closes and the joint moves on, to a phase or to DONE or
LOW_ENERGY. Where the report measures an angle outside the window the tuner raises the drift count, sets lock-held
false and moves the tap one step within floor and ceiling, or raises TUNE_LIMIT; COIL_DRIFT is raised where the
count reaches the drift limit. Where both raise a cause, and where the heat law unit's ends the joint first, what
stands follows the order the model leaves free (log entries 6, 9). Then the trip mark faults the stage, and without
it a deferred decision is made. -/
def Obligations.HeatReportCounts : Prop :=
  ∀ (time : Nat) (g : Stage) (rep : SegReport) (s : State) (seg : Segment) (h : Head) (j : Joint) (rec : Recipe)
    (n : Nat), s.inReset = false → (s.stage g).segment = some seg → seg.head = h → (s.head h).mode = .heating →
    (s.head h).settings.stage = g → (s.head h).joint = some j → j.recipe = some rec → j.phase = some n →
    let r := s.head h
    let now := max s.now time
    let counted := j.count (min rep.power 16000 * min rep.onTime seg.duration)
    let holds (k : Joint) (tuning : TuningRec) : State :=
      ({ s with now := now, choices := s.choices + 1 } : State).setStage g
        { s.stage g with segment := none, completionTimer := none } |>.setHead h
          { r with joint := some k, tuning := tuning }
    let ceiling : Prop := rec.energyCeiling ≠ 0 ∧ j.ceiling ≤ counted.energy
    let exits : Prop := j.exitPending = true ∨
      ∃ e, (j.thresholds[n - 1]?).join = some e ∧ e ≤ counted.energy - j.entryEnergy
    let heat (k : Joint) (o : Option JointOutcome) : Prop :=
      (ceiling ∧ k = counted ∧ o = some .overEnergy) ∨
      (¬ ceiling ∧ exits ∧ (counted.closedAt now).movesOn rec now r.temp.tf n k o) ∨
      (¬ ceiling ∧ ¬ exits ∧ k = counted ∧ o = none)
    let out : Bool := decide (0 < rep.onTime) &&
      decide (r.settings.angleWindow < (max (-90) (min rep.angle 90)).natAbs)
    let t := r.tuning
    let tap : Option Nat :=
      if 0 < rep.angle then
        if r.settings.floor ≤ t.currentTap + 1 ∧ t.currentTap + 1 ≤ r.settings.ceiling then some (t.currentTap + 1)
        else none
      else if r.settings.floor < t.currentTap ∧ t.currentTap - 1 ≤ r.settings.ceiling then some (t.currentTap - 1)
      else none
    let tuned : TuningRec :=
      if out then { t with driftCount := min (t.driftCount + 1) 255, lockHeld := false,
                           currentTap := tap.getD t.currentTap }
      else t
    let stuck : Bool := out && tap.isNone
    let drift : Bool := out && decide (t.driftCount + 1 = r.settings.driftLimit) && decide (r.settings.driftLimit ≤ 255)
    let shown (b : Bool) (u : State) : State :=
      if b && drift then u.raise (.coilDrift h (tap.getD t.currentTap)) else u
    let ends (k : Joint) (o : JointOutcome) : State :=
      let first := Config.tunerEventFirst s.choices
      shown (!first) ((shown first (holds { k with cause := some o } tuned)).endJoint h o)
    ∀ k o, heat k o →
      let followed : State := if stuck then ends k .tuneLimit else shown true (holds k tuned)
      let worked : State :=
        match o, Config.reportOrder s.choices with
        | none, .tunerCauseFirst => if stuck then ends counted .tuneLimit else followed
        | none, _ => followed
        | some o, .tunerCauseFirst => if stuck then ends counted .tuneLimit else ends k o
        | some o, .tunerActsFirst => ends k o
        | some o, .heatFirst => (holds { k with cause := some o } t).endJoint h o
      exec (.segmentReport time g true rep) s = .next (worked.afterReport g rep.trip (s.stage g).deferred)

/-- On a part not held in reset, for a report of a TUNING joint's segment: the segment is dropped and the energy
counted. A probe with no on-time or outside the angle window moves the current tap to the search's candidate (the
floor after the skip tap, else the next tap, passing over the skip tap) while it is at or below the ceiling; above
it the ceiling-reached flag is set and NO_LOCK ends the joint. A probe inside the window locks: LOCKED, tap and load
in the joint; inside the coupling window they become the last lock and the head enters HEATING and phase 1, passing
through RAMP phases of no length, a recipe that ends so ending the joint with DONE or LOW_ENERGY; outside it
COUPLING ends the joint. LOAD_SHIFT is raised when |R − R_prev| × 100 exceeds the limit times R_prev. Where the
trimmed energy ceiling is met OVER_ENERGY ends the joint, before, after or in place of the tuner's work as the order
the model leaves free has it (log entries 6, 9, 10, 11). Then the trip mark faults the stage, and without it a
deferred decision is made. -/
def Obligations.ProbeReportsSearchAndLock : Prop :=
  ∀ (time : Nat) (g : Stage) (rep : SegReport) (s : State) (seg : Segment) (h : Head) (j : Joint) (rec : Recipe),
    s.inReset = false → (s.stage g).segment = some seg → seg.head = h → (s.head h).mode = .tuning →
    (s.head h).settings.stage = g → (s.head h).joint = some j → j.recipe = some rec →
    let r := s.head h
    let x := r.settings
    let t := r.tuning
    let now := max s.now time
    let counted := j.count (min rep.power 16000 * min rep.onTime seg.duration)
    let holds (m : HeadMode) (k : Joint) (tuning : TuningRec) : State :=
      ({ s with now := now, choices := s.choices + 1 } : State).setStage g
        { s.stage g with segment := none, completionTimer := none } |>.setHead h
          { r with mode := m, joint := some k, tuning := tuning }
    let ceiling : Bool := decide (rec.energyCeiling ≠ 0) && decide (j.ceiling ≤ counted.energy)
    let inside : Bool := decide (0 < rep.onTime) && decide ((max (-90) (min rep.angle 90)).natAbs ≤ x.angleWindow)
    let first := if t.skipTap = some t.currentTap then x.floor else t.currentTap + 1
    let next := if t.skipTap = some first then first + 1 else first
    let l : LockRecord := { tap := t.currentTap, load := rep.load }
    let fits : Bool := decide (rec.rMin ≤ rep.load) && decide (rep.load ≤ rec.rMax)
    let k : Joint := if inside then { counted with lock := some l } else counted
    let tuned : TuningRec :=
      if inside then { t with lockState := .locked, lastLock := if fits then some l else t.lastLock }
      else if next ≤ x.ceiling then { t with currentTap := next }
      else { t with ceilingReached := true }
    let reply : TunerReply :=
      if inside then (if fits then .lock else .cause .coupling)
      else if next ≤ x.ceiling then .nothing
      else .cause .noLock
    let shifted : Bool := inside && match t.lastLock with
      | some p => decide (x.loadShiftLimit * p.load <
          (if p.load ≤ rep.load then rep.load - p.load else p.load - rep.load) * 100)
      | none => false
    let shown (b : Bool) (u : State) : State := if b && shifted then u.raise (.loadShift h rep.load) else u
    let ends (m : HeadMode) (k : Joint) (o : JointOutcome) : State :=
      let early := Config.tunerEventFirst s.choices
      shown (!early) ((shown early (holds m { k with cause := some o } tuned)).endJoint h o)
    (∃ y o, k.movesOn rec now r.temp.tf 0 y o) ∧
    ∀ y o, k.movesOn rec now r.temp.tf 0 y o →
      let worked : State :=
        match ceiling, Config.reportOrder s.choices, reply with
        | false, _, .nothing => shown true (holds .tuning k tuned)
        | false, _, .lock => match o with
          | none => shown true (holds .heating y tuned)
          | some o => ends .heating y o
        | false, _, .cause o => ends .tuning k o
        | true, .tunerCauseFirst, .nothing => ends .tuning k .overEnergy
        | true, .tunerCauseFirst, .lock => ends .heating y .overEnergy
        | true, .tunerCauseFirst, .cause o => ends .tuning k o
        | true, .tunerActsFirst, _ => ends .tuning k .overEnergy
        | true, .heatFirst, _ =>
          let u := (holds .tuning { counted with cause := some .overEnergy } t).endJoint h .overEnergy
          if reply = .cause .noLock then
            u.modHead h fun q => { q with tuning := { q.tuning with ceilingReached := true } }
          else u
      exec (.segmentReport time g true rep) s = .next (worked.afterReport g rep.trip (s.stage g).deferred)

/-- On a part not held in reset, on a stage with a running frame: a decision still deferred is dropped and the decision
record says OVERTAKEN, with the wait since the part began and the slot's own rule (that rule is the model's, log
entry 20). The slot timer's expiry then starts the next live slot in list order at the expiry time of the timer,
with its part times and timers by its length and split point; at a frame boundary with no pending frame the first
live slot follows; with one the pending frame first becomes the active frame, FRAME_ADOPTED is raised and its first
live slot starts. The split timer's expiry starts the second part. With a segment in flight the decision is deferred
and nothing else changes; with none it is made at once. -/
def Obligations.SlotAndSplitExpiry : Prop :=
  ∀ (e : Nat) (g : Stage) (run : Running) (frame : List Slot) (s : State), s.inReset = false →
    (s.stage g).running = some run → (s.stage g).active = some frame →
    let r := s.stage g
    let now := s.advance e
    let kept : StageRec :=
      if r.deferred then
        { r with deferred := false,
                 lastDecision := some
                   { slot := run.slot, part := run.part, wait := max s.now e - run.partStart,
                     rule := ((slotAt frame run.slot).map fun x => x.rule.name).getD .passive, recipient := none,
                     outcome := .overtaken, sent := none } }
      else r
    let starts (n : Nat) (x : Slot) : Running :=
      { slot := n, part := match x.rule with | .split _ _ _ => .first | _ => .whole, slotStart := e, partStart := e,
        partEnd := match x.rule with | .split _ _ m => e + m | _ => e + x.length,
        slotTimer := e + x.length,
        splitTimer := match x.rule with | .split _ _ m => some (e + m) | _ => none }
    let goesOn (c : Instr) (u : State) (k : StageRec) (x : Running) : Prop :=
      (r.segment.isSome → exec c s = .next (u.setStage g { k with running := some x, deferred := true })) ∧
      (r.segment = none → exec c s = .next ((u.setStage g { k with running := some x }).decideSlot g))
    (run.slotTimer = e →
      (∀ n x, run.slot < n → frame[n - 1]? = some x → x.length ≠ 0 →
        (∀ k y, run.slot ≤ k → k + 1 < n → frame[k]? = some y → y.length = 0) →
        goesOn (.slotTimerExpiry g) now kept (starts n x)) ∧
      ((∀ k y, run.slot ≤ k → frame[k]? = some y → y.length = 0) →
        (r.pendingFrame = none → ∀ n x, firstLive frame n x → goesOn (.slotTimerExpiry g) now kept (starts n x)) ∧
        ∀ f, r.pendingFrame = some f → ∀ n x, firstLive f n x →
          goesOn (.slotTimerExpiry g) (now.raise (.frameAdopted g))
            { kept with active := some f, pendingFrame := none } (starts n x))) ∧
    (run.splitTimer = some e →
      goesOn (.splitTimerExpiry g) now kept
        { run with part := .second, partStart := e, partEnd := run.slotTimer, splitTimer := none })

/-- For a stage with a running slot of its active frame and a recipient h chosen by its rule: the gap applies unless the
order is a CHAIN continuation or the matrix is on h, the lead is then the gap, and the window the part end less the
time and the lead. A TUNING head is sent the probe power within the limits for at most its settle step, a HEATING
head the heat decision's setpoint for the window, where window and power are above 0: the order goes out, the
segment is in flight, the completion timer runs to its end plus 20 ms, the matrix is on h, and last served is h
exactly where the order ends with the slot. Else no order goes out. The pointer moves only for the arbiter, and with
no recipient only the decision record changes. -/
def Obligations.DecisionHandsOverSegment : Prop :=
  ∀ (s : State) (g : Stage) (run : Running) (frame : List Slot) (slot : Slot), (s.stage g).running = some run →
    (s.stage g).active = some frame → slotAt frame run.slot = some slot →
    let r := s.stage g
    let c := s.choose g run slot.rule
    let decided (receiver : Option Head) (o : DecisionOutcome) (sent : Option SentRec) : SlotDecision :=
      { slot := run.slot, part := run.part, wait := s.now - run.partStart, rule := c.rule, recipient := receiver,
        outcome := o, sent := sent }
    (c.recipient = none →
      s.decideSlot g = s.setStage g { r with
        lastDecision := some (decided none (if c.rule = .passive then .passiveRule else .noneWanting) none) }) ∧
    ∀ h, c.recipient = some h →
      let gap : Bool := !c.continuation && decide (r.matrix ≠ some h)
      let lead := if gap then r.gap else 0
      let window : Int := (run.partEnd : Int) - s.now - lead
      let pointer := if c.rule = .rotate then some h else r.pointer
      let after (power duration : Nat) (o : DecisionOutcome) : StageRec :=
        if 0 < window ∧ power ≠ 0 then
          { r with
            pointer := pointer,
            orders := r.orders ++ [.heat h (s.head h).tuning.currentTap power lead duration c.continuation],
            segment := some { head := h, tap := (s.head h).tuning.currentTap, power := power, lead := lead,
                              duration := duration, continuation := c.continuation, handover := s.now, cut := false },
            completionTimer := some (s.now + lead + duration + 20),
            matrix := some h,
            lastServed := if s.now + lead + duration = run.slotTimer then some (h, run.slotTimer) else none,
            lastDecision := some (decided (some h) o (some { gap := gap, window := window.toNat, duration := duration,
                                                             power := power, continuation := c.continuation })) }
        else { r with
          pointer := pointer,
          lastDecision := some (decided (some h) (if power = 0 then .zeroPower else .windowShort) none) }
      ((s.head h).mode = .tuning →
        let x := (s.head h).settings
        s.decideSlot g = s.setStage g
          (after (min x.probePower (min x.powerLimit r.powerLimit / 10 * 10)) (min x.settleStep window.toNat)
            .probeSent)) ∧
      ∀ d, (s.head h).mode ≠ .tuning → s.heatDecision g h = some d →
        let sent : Bool := decide (0 < window) && decide (d.setpoint ≠ 0)
        s.decideSlot g = (s.setStage g (after d.setpoint window.toNat .heatSent)).modJoint h fun j =>
          { j with decision := some { d with orderSent := sent },
                   lastSetpoint := if sent then some d.setpoint else j.lastSetpoint }

/-- A head wants power exactly when it is TUNING, or HEATING in a RAMP or SOAK phase, with CLAMP closed, FLOW good and
the device in RUN. A PREFER slot naming h and k goes to h when h wants power, to k when h does not and k does, and
to no head when neither does; it leaves the pointer and does not depend on it; with h and k the same head it acts as
FIXED with fallback PASSIVE. A PASSIVE slot goes to none. A FIXED slot goes to its head when it wants power, and a
CHAIN slot when the last segment was its head's and ended at this slot's start and the head wants power, as a
continuation; else the fallback decides: PASSIVE gives none, ROTATE chooses as a ROTATE slot. The arbiter picks the
member that wants power and comes first after the pointer in ascending number, H0 following H7, the pointer's own
head last, and the pick becomes the pointer; with no such member it picks none. The parts of a SPLIT slot go to its
first and its second head, each where it wants power. No other choice moves the pointer. -/
def Obligations.PreferSlotChoosesByOrder : Prop :=
  ∀ (s : State) (stage : Stage) (run : Running) (h k : Head),
    let choice (rule : SlotRule) : Choice := s.choose stage run rule
    let nobody (name : RuleName) : Choice := { recipient := none, rule := name, continuation := false }
    let p := (s.stage stage).pointer
    let turn (m : Head) : Nat := match p with | none => m.num | some q => (m.num + 7 - q.num) % 8
    let wanting (m : Head) : Prop := (s.head m).settings.stage = stage ∧ s.wantsPower m = true
    let fallback (fb : Fallback) : Choice := match fb with | .passive => nobody .passive | .rotate => choice .rotate
    let heats (j : Joint) : Prop := ∃ rec n f, j.recipe = some rec ∧ j.phase = some n ∧
      ((∃ rate, rec.phases[n - 1]? = some (.ramp rate f)) ∨ ∃ x, rec.phases[n - 1]? = some (.soak x f))
    let preferred := choice (.prefer h k)
    (s.wantsPower h = true ↔
      ((s.head h).mode = .tuning ∨ ((s.head h).mode = .heating ∧ ∃ j, (s.head h).joint = some j ∧ heats j)) ∧
        (s.head h).line.clamp.taken = some .high ∧ (s.head h).line.flow.taken = some .high ∧ s.cell.mode = .run) ∧
    (s.wantsPower h = true → preferred.recipient = some h) ∧
    (s.wantsPower h = false → s.wantsPower k = true → preferred.recipient = some k) ∧
    (s.wantsPower h = false → s.wantsPower k = false → preferred.recipient = none) ∧
    (∀ q, pointerAfter q preferred = q) ∧
    (∀ q, State.choose (s.setStage stage { s.stage stage with pointer := q }) stage run (.prefer h k) = preferred) ∧
    (choice (.prefer h h)).recipient = (choice (.fixed h .passive)).recipient ∧
    choice .passive = nobody .passive ∧
    (∀ fb, (s.wantsPower h = true → choice (.fixed h fb) =
        { recipient := some h, rule := .fixed, continuation := false } ∧ pointerAfter p (choice (.fixed h fb)) = p) ∧
      (s.wantsPower h = false → choice (.fixed h fb) = fallback fb)) ∧
    (∀ fb, ((s.stage stage).lastServed = some (h, run.slotStart) ∧ s.wantsPower h = true →
        choice (.chain h fb) = { recipient := some h, rule := .chain, continuation := true } ∧
          pointerAfter p (choice (.chain h fb)) = p) ∧
      (¬ ((s.stage stage).lastServed = some (h, run.slotStart) ∧ s.wantsPower h = true) →
        choice (.chain h fb) = fallback fb)) ∧
    ((wanting h ∧ (∀ m, wanting m → turn h ≤ turn m) → choice .rotate =
        { recipient := some h, rule := .rotate, continuation := false } ∧
          pointerAfter p (choice .rotate) = some h) ∧
      ((∀ m, ¬ wanting m) → choice .rotate = nobody .rotate ∧ pointerAfter p (choice .rotate) = p)) ∧
    (∀ m, let served := if run.part = .second then k else h
      choice (.split h k m) = { recipient := if s.wantsPower served = true then some served else none,
                                rule := .split, continuation := false } ∧
        pointerAfter p (choice (.split h k m)) = p)

/-- On a part not held in reset: a bank above 3 is refused with BAD_FIELD; then, in this order, STORE_BUSY where the
store state is not READY, STORE_ERROR_PENDING where an error flag is set, PROTECTED where the bank is not writable
(working banks 2 and 3 need the working enable, master banks 0 and 1 both enables and the KEY closed). A request
that passes is accepted whatever the entries: ERASING, the erase of the bank in flight and the operation timer 400
ms ahead, nothing else changed but the reply. Every entry of the bank then reads as not valid to a fetch and as
ERASING to READ_RECIPE, while joints keep their copied recipes. -/
def Obligations.EraseBankChecksAndStarts : Prop :=
  ∀ (time : Nat) (tag : Byte) (bank : Nat) (s : State), s.inReset = false →
    let refused (reason : Byte) : Prop :=
      exec (.eraseBank time tag bank) s = .next (s.answered time (refusalReply 0x17 tag reason))
    let writable : Prop := s.store.workingEnable = true ∧
      (2 ≤ bank ∨ (s.store.masterEnable = true ∧ s.cell.key.taken = some .high))
    (3 < bank → refused 0x03) ∧
    ∀ b : Fin 4, b.val = bank →
      (s.store.mode ≠ .ready → refused 0x0F) ∧
      (s.store.mode = .ready →
        (s.store.programError = true ∨ s.store.eraseError = true → refused 0x10) ∧
        (s.store.programError = false → s.store.eraseError = false →
          (¬ writable → refused 0x11) ∧
          (writable →
            let t : State := { s with store := { s.store with
              mode := .erasing, op := some (.erase b), opTimer := some (max s.now time + 400), carried := false } }
            exec (.eraseBank time tag bank) s = .next (t.answered time (okReply 0x97 tag [])) ∧
            (∀ h, t.head h = s.head h) ∧
            ∀ e : Fin 64, e.val / 16 = bank → t.store.fetched e.val = none ∧
              ∀ later tag', exec (.readRecipe later tag' e.val) t =
                .next (t.answered later (okReply 0x95 tag' [0x04])))))

/-- On a part not held in reset. PROGRAM_RECIPE is refused with BAD_FIELD (entry above 63), BAD_RECIPE, STORE_BUSY,
STORE_ERROR_PENDING, PROTECTED and NOT_BLANK, the first that fails; else the store is PROGRAMMING with the record,
the timer 6 ms ahead and the entry still BLANK. SET_PROTECT with a byte other than 0 and 1 is refused with
BAD_FIELD, turning the master enable on while KEY is not closed with PROTECTED, and otherwise both enables take the
values and are replied. CLEAR_STORE replies both error flags as they stood and clears them. -/
def Obligations.ProgramProtectAndClear : Prop :=
  ∀ (time : Nat) (tag : Byte) (s : State), s.inReset = false →
    (∀ entry record,
      let c : Instr := .programRecipe time tag entry record
      let refused (reason : Byte) : Prop := exec c s = .next (s.answered time (refusalReply 0x16 tag reason))
      let writable : Prop := s.store.workingEnable = true ∧
        (32 ≤ entry ∨ (s.store.masterEnable = true ∧ s.cell.key.taken = some .high))
      (63 < entry → refused 0x03) ∧
      ∀ e : Fin 64, e.val = entry →
        ((∀ r, parseRecipe record = some r → r.valid = false) → refused 0x13) ∧
        ∀ r, parseRecipe record = some r → r.valid = true →
          (s.store.mode ≠ .ready → refused 0x0F) ∧
          (s.store.mode = .ready →
            (s.store.programError = true ∨ s.store.eraseError = true → refused 0x10) ∧
            (s.store.programError = false → s.store.eraseError = false →
              (¬ writable → refused 0x11) ∧
              (writable → s.store.entries[e] ≠ .blank → refused 0x12) ∧
              (writable → s.store.entries[e] = .blank →
                exec c s = .next (({ s with store := { s.store with
                    mode := .programming, op := some (.program e r), opTimer := some (max s.now time + 6),
                    carried := false } } : State).answered time (okReply 0x96 tag [])))))) ∧
    (∀ w m, 1 < w ∨ 1 < m →
      exec (.setProtect time tag w m) s = .next (s.answered time (refusalReply 0x1A tag 0x03))) ∧
    (∀ w m : Bool,
      let c : Instr := .setProtect time tag w.toNat m.toNat
      (m = true → s.store.masterEnable = false → s.cell.key.taken ≠ some .high →
        exec c s = .next (s.answered time (refusalReply 0x1A tag 0x11))) ∧
      (m = false ∨ s.store.masterEnable = true ∨ s.cell.key.taken = some .high →
        exec c s = .next (({ s with store := { s.store with workingEnable := w,
                                                             masterEnable := m } } : State).answered time
          (okReply 0x9A tag (flagField w ++ flagField m))))) ∧
    exec (.clearStore time tag) s =
      .next (({ s with store := { s.store with programError := false, eraseError := false } } : State).answered time
        (okReply 0x99 tag (flagField s.store.programError ++ flagField s.store.eraseError)))

/-- For every state, held in reset or not. A program's completion makes its entry VALID with the record, or SPOILED with
the program error flag set; an erase's makes every entry of its bank BLANK, or SPOILED with the erase error flag
set; other entries stay. The store is READY with nothing in flight, STORE_DONE is raised unless a warm reset carried
the operation, and the waiting fetches are served. The suspend timer's expiry serves the waiting fetches and returns
the erase to ERASING with its kept time. Service takes the oldest fetch until none waits: a VALID entry outside a
bank being erased is loaded, with its trimmed values, and the start check made; any other entry ends an ARMED joint
with RECIPE_MISSING. A fetch is served at once in READY, waits in PROGRAMMING, is not valid from the bank being
erased, and from another bank suspends the erase for 1 ms (suspend enable on), waits (off) or joins the suspension.
That the completions act while the reset line is held, that fetches joining during the service are served too, that
the table alone decides at the moment an erase is due, and that READY serves a fetch ahead of those that still wait
are the model's (log entries 17, 25, 37, 38). -/
def Obligations.StoreTimersComplete : Prop :=
  let erasing (u : State) (n : Nat) : Prop := ∃ b : Fin 4, u.store.op = some (.erase b) ∧ b.val = n / 16
  let loaded (r : Recipe) (j : Joint) : Joint :=
    { j with recipe := some r, minEnergy := r.minEnergy * j.job.trim / 100,
             ceiling := r.energyCeiling * j.job.trim / 100,
             thresholds := r.phases.map fun p => match p with
               | .soak (.energy x) _ => some (x * j.job.trim / 100)
               | _ => none,
             phase := none, exitPending := false, tEntry := none, phaseEntry := none, phaseList := [] }
  let serves (finish : Head → JointOutcome → State → State) (u : State) (f : Fetch) (t : State) : Prop :=
    (∃ r, u.store.entries[f.entry]? = some (.valid r) ∧ ¬ erasing u f.entry ∧
      t = (u.modJoint f.head (loaded r)).startCheck f.head) ∨
    (((∀ r, u.store.entries[f.entry]? ≠ some (.valid r)) ∨ erasing u f.entry) ∧
      t = if (u.head f.head).mode = .armed then finish f.head .recipeMissing u else u)
  (∀ (passed : Bool) (e : Nat) (s : State),
    let done (entries : Vector Entry 64) (programError eraseError : Bool) (v : Event) : State :=
      let ready : State := { s.advance e with store := { s.store with
        mode := .ready, op := none, opTimer := none, carried := false, programError := programError,
        eraseError := eraseError, entries := entries } }
      if s.store.carried then ready else ready.raise v
    (∀ k r, s.store.op = some (.program k r) → s.store.opTimer = some e →
      exec (.programComplete passed) s = .next
        (done (s.store.entries.set k (if passed then .valid r else .spoiled)) (s.store.programError || !passed)
          s.store.eraseError
          (.storeDone ⟨k.val / 16, by have := k.isLt; omega⟩ (.program k) passed)).serveAll) ∧
    (∀ b, s.store.op = some (.erase b) → s.store.opTimer = some e →
      exec (.eraseComplete passed) s = .next
        (done (Vector.ofFn fun i : Fin 64 =>
            if i.val / 16 = b.val then (if passed then .blank else .spoiled) else s.store.entries[i])
          s.store.programError (s.store.eraseError || !passed) (.storeDone b .erase passed)).serveAll) ∧
    (s.store.suspendTimer = some e →
      let u := State.serveAll { s.advance e with store := { s.store with suspendTimer := none } }
      exec .suspendTimerExpiry s = .next { u with store := { u.store with
        mode := .erasing, opTimer := u.store.remaining.map (max s.now e + ·), remaining := none } })) ∧
  (∀ u : State, (u.store.waiting = [] → u.serveAll = u) ∧
    ∀ f rest, u.store.waiting = f :: rest → ∃ t,
      serves (fun h o s => s.endJoint h o) { u with store := { u.store with waiting := rest } } f t ∧
      u.serveAll = t.serveAll) ∧
  ∀ (finish : Head → JointOutcome → State → State) (u : State) (f : Fetch),
    let atOnce : Prop := serves finish u f (u.takeFetch finish f)
    let joins (w : State) : State := { w with store := { w.store with waiting := w.store.waiting ++ [f] } }
    (u.store.mode = .ready → atOnce) ∧
    (u.store.mode = .programming → u.takeFetch finish f = joins u) ∧
    (u.store.mode = .erasing ∨ u.store.mode = .eraseSuspended → erasing u f.entry → atOnce) ∧
    (u.store.mode = .erasing → ¬ erasing u f.entry → u.cell.eraseSuspend = true →
      u.takeFetch finish f = joins { u with store := { u.store with
        mode := .eraseSuspended, remaining := u.store.opTimer.map (· - u.now), opTimer := none,
        suspendTimer := some (u.now + 1) } }) ∧
    (u.store.mode = .erasing → ¬ erasing u f.entry → u.cell.eraseSuspend = false →
      u.takeFetch finish f = joins u) ∧
    (u.store.mode = .eraseSuspended → ¬ erasing u f.entry → u.takeFetch finish f = joins u)

/-- For a joint in a RAMP or SOAK phase: with a sample not older than the stale limit, a target (the ramp target, or
T_end in SOAK) and Tf, the decision is COMPUTED from P_base + Kp × (T_tgt − Tf), rounded and held between the lower
bound and the cap; with an older sample, or none taken for the joint, it has no target and no error, and its
setpoint is P_min under STEP_DOWN and the last setpoint, or P_min where there is none, under HOLD_LAST, held between
the same bounds. The record holds the time since the start, the age, the cap and the lower bound. For every request,
P_min, P_max and limits: the rounded request is a multiple of 10 W with P_req − 5 ≤ P_raw < P_req + 5; the cap is
the largest multiple of 10 W not above P_max and both limits; the lower bound is the smallest multiple of 10 W not
below P_min; the setpoint is a multiple of 10 W not above the cap, not below P_min unless the lower bound is above
the cap, equal to the request between the bounds, and the cap where the lower bound is above it. The ramp target
lies between T_entry and T_end where T_entry is not above T_end, and rises with time. -/
def Obligations.SetpointBounds : Prop :=
  (∀ raw : Int, roundPower raw % 10 = 0 ∧ roundPower raw - 5 ≤ raw ∧ raw < roundPower raw + 5) ∧
  (∀ (pMax head stage : Nat),
    let cap := powerCap pMax head stage
    cap % 10 = 0 ∧ cap ≤ pMax ∧ cap ≤ head ∧ cap ≤ stage ∧
      (pMax < cap + 10 ∨ head < cap + 10 ∨ stage < cap + 10)) ∧
  (∀ pMin : Nat, powerFloor pMin % 10 = 0 ∧ pMin ≤ powerFloor pMin ∧ powerFloor pMin < pMin + 10) ∧
  (∀ (raw : Int) (pMin pMax head stage : Nat),
    let cap := powerCap pMax head stage
    let lower := powerFloor pMin
    let set := clampPower (roundPower raw) lower cap
    set % 10 = 0 ∧ set ≤ cap ∧ (lower ≤ cap → pMin ≤ set) ∧ (cap < lower → set = cap) ∧
      ((lower : Int) ≤ roundPower raw → roundPower raw ≤ cap → (set : Int) = roundPower raw)) ∧
  (∀ (tEnd tEntry rate t u : Nat), rampTarget tEnd tEntry rate t ≤ tEnd ∧
    (tEntry ≤ tEnd → tEntry ≤ rampTarget tEnd tEntry rate t) ∧
    (t ≤ u → rampTarget tEnd tEntry rate t ≤ rampTarget tEnd tEntry rate u)) ∧
  ∀ (s : State) (g : Stage) (h : Head) (j : Joint) (rec : Recipe) (n : Nat) (p : Phase) (f : HeatFields),
    (s.head h).joint = some j → j.recipe = some rec → j.phase = some n → rec.phases[n - 1]? = some p →
    (∃ rate, p = .ramp rate f) ∨ (∃ x, p = .soak x f) →
    let r := s.head h
    let age : Option Nat := r.temp.lastTaken.map (s.now - ·)
    let target : Option Nat := match p with
      | .ramp rate _ => j.tEntry.map fun t => rampTarget f.tEnd t rate (s.now - j.phaseEntry.getD s.now)
      | _ => some f.tEnd
    let cap := powerCap f.pMax r.settings.powerLimit (s.stage g).powerLimit
    let lower := powerFloor f.pMin
    let record (basis : Basis) (goal : Option Nat) (error : Option Int) (request : Int) : DecisionRecord :=
      { time := s.now - j.startTime.getD s.now, basis := basis, age := age, target := goal, error := error,
        cap := cap, lowerBound := lower, setpoint := (min (cap : Int) (max (lower : Int) request)).toNat,
        orderSent := false }
    (∀ a t tf, age = some a → a ≤ r.settings.staleLimit → target = some t → r.temp.tf = some tf →
      s.heatDecision g h = some (record .computed (some t) (some ((t : Int) - tf))
        (((f.pBase : Int) + f.kp * ((t : Int) - tf) + 5) / 10 * 10))) ∧
    (age = none ∨ (∃ a, age = some a ∧ r.settings.staleLimit < a) →
      (r.settings.stalePolicy = .stepDown → s.heatDecision g h = some (record .stepDown none none f.pMin)) ∧
      (r.settings.stalePolicy = .holdLast →
        s.heatDecision g h = some (record .holdLast none none (j.lastSetpoint.getD f.pMin))))
end

