-- ==== Sys2Proof/Laws/State.lean ====
section
/-! SUPPORT. Small lemmas about the accessors of State: what one update leaves of each field, and reading a head or a stage
after an update. Later proofs cite these and unfold no record update. -/

namespace Sys2Proof

/-! ## One thing per head and per stage -/

@[simp] theorem PerHead.get_set_same {α : Type} (p : PerHead α) (h : Head) (v : α) : (p.set h v).get h = v := by
  cases h <;> rfl

@[simp] theorem PerHead.get_set_other {α : Type} (p : PerHead α) {h k : Head} (v : α) (ne : k ≠ h) :
    (p.set h v).get k = p.get k := by
  cases h <;> cases k <;> first | rfl | exact absurd rfl ne

theorem PerHead.get_set {α : Type} (p : PerHead α) (h k : Head) (v : α) :
    (p.set h v).get k = if k = h then v else p.get k := by
  by_cases e : k = h
  · subst e; simp
  · simp [e]

@[simp] theorem PerHead.set_set {α : Type} (p : PerHead α) (h : Head) (v w : α) : (p.set h v).set h w = p.set h w := by
  cases h <;> rfl

@[simp] theorem PerHead.set_get {α : Type} (p : PerHead α) (h : Head) : p.set h (p.get h) = p := by cases h <;> rfl

@[simp] theorem PerHead.get_make {α : Type} (f : Head → α) (h : Head) : (PerHead.make f).get h = f h := by
  cases h <;> rfl

theorem PerHead.ext_get {α : Type} {p q : PerHead α} (same : ∀ h, p.get h = q.get h) : p = q := by
  cases p; cases q
  have e0 := same .h0; have e1 := same .h1; have e2 := same .h2; have e3 := same .h3
  have e4 := same .h4; have e5 := same .h5; have e6 := same .h6; have e7 := same .h7
  simp only [PerHead.get] at e0 e1 e2 e3 e4 e5 e6 e7
  simp [e0, e1, e2, e3, e4, e5, e6, e7]

@[simp] theorem PerStage.get_set_same {α : Type} (p : PerStage α) (g : Stage) (v : α) : (p.set g v).get g = v := by
  cases g <;> rfl

@[simp] theorem PerStage.get_set_other {α : Type} (p : PerStage α) {g k : Stage} (v : α) (ne : k ≠ g) :
    (p.set g v).get k = p.get k := by
  cases g <;> cases k <;> first | rfl | exact absurd rfl ne

theorem PerStage.get_set {α : Type} (p : PerStage α) (g k : Stage) (v : α) :
    (p.set g v).get k = if k = g then v else p.get k := by
  by_cases e : k = g
  · subst e; simp
  · simp [e]

@[simp] theorem PerStage.set_set {α : Type} (p : PerStage α) (g : Stage) (v w : α) :
    (p.set g v).set g w = p.set g w := by
  cases g <;> rfl

@[simp] theorem PerStage.set_get {α : Type} (p : PerStage α) (g : Stage) : p.set g (p.get g) = p := by cases g <;> rfl

/-- Every head stands in the list of all heads. -/
@[simp] theorem Head.mem_all (h : Head) : h ∈ Head.all := by cases h <;> decide

/-- No head stands twice in the list of all heads. -/
theorem Head.all_nodup : Head.all.Nodup := by decide

namespace Machine

/-! ## Heads -/

@[simp] theorem State.head_setHead_same (s : State) (h : Head) (r : HeadRec) : (s.setHead h r).head h = r := by
  simp [State.head, State.setHead]

@[simp] theorem State.head_setHead_other (s : State) {h k : Head} (r : HeadRec) (ne : k ≠ h) :
    (s.setHead h r).head k = s.head k := by
  simp [State.head, State.setHead, ne]

theorem State.head_setHead (s : State) (h k : Head) (r : HeadRec) :
    (s.setHead h r).head k = if k = h then r else s.head k := by
  simp [State.head, State.setHead, PerHead.get_set]

@[simp] theorem State.setHead_setHead (s : State) (h : Head) (r q : HeadRec) :
    (s.setHead h r).setHead h q = s.setHead h q := by
  simp [State.setHead]

@[simp] theorem State.setHead_head (s : State) (h : Head) : s.setHead h (s.head h) = s := by
  simp [State.setHead, State.head]

@[simp] theorem State.setHead_now (s : State) (h : Head) (r : HeadRec) : (s.setHead h r).now = s.now := rfl
@[simp] theorem State.setHead_inReset (s : State) (h : Head) (r : HeadRec) : (s.setHead h r).inReset = s.inReset := rfl
@[simp] theorem State.setHead_choices (s : State) (h : Head) (r : HeadRec) : (s.setHead h r).choices = s.choices := rfl
@[simp] theorem State.setHead_link (s : State) (h : Head) (r : HeadRec) : (s.setHead h r).link = s.link := rfl
@[simp] theorem State.setHead_cell (s : State) (h : Head) (r : HeadRec) : (s.setHead h r).cell = s.cell := rfl
@[simp] theorem State.setHead_stages (s : State) (h : Head) (r : HeadRec) : (s.setHead h r).stages = s.stages := rfl
@[simp] theorem State.setHead_tracker (s : State) (h : Head) (r : HeadRec) : (s.setHead h r).tracker = s.tracker := rfl
@[simp] theorem State.setHead_report (s : State) (h : Head) (r : HeadRec) : (s.setHead h r).report = s.report := rfl
@[simp] theorem State.setHead_store (s : State) (h : Head) (r : HeadRec) : (s.setHead h r).store = s.store := rfl
@[simp] theorem State.setHead_pending (s : State) (h : Head) (r : HeadRec) : (s.setHead h r).pending = s.pending := rfl
@[simp] theorem State.stage_setHead (s : State) (h : Head) (r : HeadRec) (g : Stage) :
    (s.setHead h r).stage g = s.stage g := rfl

theorem State.modHead_eq (s : State) (h : Head) (f : HeadRec → HeadRec) : s.modHead h f = s.setHead h (f (s.head h)) := rfl

theorem State.modJoint_eq (s : State) (h : Head) (f : Joint → Joint) :
    s.modJoint h f = s.setHead h { s.head h with joint := (s.head h).joint.map f } := rfl

/-! ## Stages -/

@[simp] theorem State.stage_setStage_same (s : State) (g : Stage) (r : StageRec) : (s.setStage g r).stage g = r := by
  simp [State.stage, State.setStage]

@[simp] theorem State.stage_setStage_other (s : State) {g k : Stage} (r : StageRec) (ne : k ≠ g) :
    (s.setStage g r).stage k = s.stage k := by
  simp [State.stage, State.setStage, ne]

theorem State.stage_setStage (s : State) (g k : Stage) (r : StageRec) :
    (s.setStage g r).stage k = if k = g then r else s.stage k := by
  simp [State.stage, State.setStage, PerStage.get_set]

@[simp] theorem State.setStage_setStage (s : State) (g : Stage) (r q : StageRec) :
    (s.setStage g r).setStage g q = s.setStage g q := by
  simp [State.setStage]

@[simp] theorem State.setStage_stage (s : State) (g : Stage) : s.setStage g (s.stage g) = s := by
  simp [State.setStage, State.stage]

@[simp] theorem State.setStage_now (s : State) (g : Stage) (r : StageRec) : (s.setStage g r).now = s.now := rfl
@[simp] theorem State.setStage_inReset (s : State) (g : Stage) (r : StageRec) :
    (s.setStage g r).inReset = s.inReset := rfl
@[simp] theorem State.setStage_choices (s : State) (g : Stage) (r : StageRec) :
    (s.setStage g r).choices = s.choices := rfl
@[simp] theorem State.setStage_link (s : State) (g : Stage) (r : StageRec) : (s.setStage g r).link = s.link := rfl
@[simp] theorem State.setStage_cell (s : State) (g : Stage) (r : StageRec) : (s.setStage g r).cell = s.cell := rfl
@[simp] theorem State.setStage_heads (s : State) (g : Stage) (r : StageRec) : (s.setStage g r).heads = s.heads := rfl
@[simp] theorem State.setStage_tracker (s : State) (g : Stage) (r : StageRec) :
    (s.setStage g r).tracker = s.tracker := rfl
@[simp] theorem State.setStage_report (s : State) (g : Stage) (r : StageRec) : (s.setStage g r).report = s.report := rfl
@[simp] theorem State.setStage_store (s : State) (g : Stage) (r : StageRec) : (s.setStage g r).store = s.store := rfl
@[simp] theorem State.setStage_pending (s : State) (g : Stage) (r : StageRec) :
    (s.setStage g r).pending = s.pending := rfl
@[simp] theorem State.head_setStage (s : State) (g : Stage) (r : StageRec) (h : Head) :
    (s.setStage g r).head h = s.head h := rfl

theorem State.modStage_eq (s : State) (g : Stage) (f : StageRec → StageRec) :
    s.modStage g f = s.setStage g (f (s.stage g)) := rfl

theorem State.send_eq (s : State) (g : Stage) (o : StageOrder) :
    s.send g o = s.setStage g { s.stage g with orders := (s.stage g).orders ++ [o] } := rfl

theorem State.dropSegment_eq (s : State) (g : Stage) :
    s.dropSegment g = s.setStage g { s.stage g with segment := none, completionTimer := none } := rfl

/-! ## The clock and the choice counter -/

@[simp] theorem State.advance_now (s : State) (t : Nat) : (s.advance t).now = max s.now t := rfl
@[simp] theorem State.advance_inReset (s : State) (t : Nat) : (s.advance t).inReset = s.inReset := rfl
@[simp] theorem State.advance_choices (s : State) (t : Nat) : (s.advance t).choices = s.choices := rfl
@[simp] theorem State.advance_link (s : State) (t : Nat) : (s.advance t).link = s.link := rfl
@[simp] theorem State.advance_cell (s : State) (t : Nat) : (s.advance t).cell = s.cell := rfl
@[simp] theorem State.advance_heads (s : State) (t : Nat) : (s.advance t).heads = s.heads := rfl
@[simp] theorem State.advance_stages (s : State) (t : Nat) : (s.advance t).stages = s.stages := rfl
@[simp] theorem State.advance_tracker (s : State) (t : Nat) : (s.advance t).tracker = s.tracker := rfl
@[simp] theorem State.advance_report (s : State) (t : Nat) : (s.advance t).report = s.report := rfl
@[simp] theorem State.advance_store (s : State) (t : Nat) : (s.advance t).store = s.store := rfl
@[simp] theorem State.advance_pending (s : State) (t : Nat) : (s.advance t).pending = s.pending := rfl
@[simp] theorem State.head_advance (s : State) (t : Nat) (h : Head) : (s.advance t).head h = s.head h := rfl
@[simp] theorem State.stage_advance (s : State) (t : Nat) (g : Stage) : (s.advance t).stage g = s.stage g := rfl
@[simp] theorem State.input_advance (s : State) (t : Nat) (i : LineInput) : (s.advance t).input i = s.input i := by
  cases i <;> rfl

@[simp] theorem State.head_chose (s : State) (h : Head) : s.chose.head h = s.head h := rfl
@[simp] theorem State.stage_chose (s : State) (g : Stage) : s.chose.stage g = s.stage g := rfl

/-! ## Events, results and replies -/

@[simp] theorem State.raise_now (s : State) (e : Event) : (s.raise e).now = s.now := rfl
@[simp] theorem State.raise_inReset (s : State) (e : Event) : (s.raise e).inReset = s.inReset := rfl
@[simp] theorem State.raise_choices (s : State) (e : Event) : (s.raise e).choices = s.choices := rfl
@[simp] theorem State.raise_link (s : State) (e : Event) : (s.raise e).link = s.link := rfl
@[simp] theorem State.raise_cell (s : State) (e : Event) : (s.raise e).cell = s.cell := rfl
@[simp] theorem State.raise_heads (s : State) (e : Event) : (s.raise e).heads = s.heads := rfl
@[simp] theorem State.raise_stages (s : State) (e : Event) : (s.raise e).stages = s.stages := rfl
@[simp] theorem State.raise_tracker (s : State) (e : Event) : (s.raise e).tracker = s.tracker := rfl
@[simp] theorem State.raise_store (s : State) (e : Event) : (s.raise e).store = s.store := rfl
@[simp] theorem State.raise_pending (s : State) (e : Event) : (s.raise e).pending = s.pending := rfl
@[simp] theorem State.raise_report (s : State) (e : Event) : (s.raise e).report = s.report.offer e := rfl
@[simp] theorem State.head_raise (s : State) (e : Event) (h : Head) : (s.raise e).head h = s.head h := rfl
@[simp] theorem State.stage_raise (s : State) (e : Event) (g : Stage) : (s.raise e).stage g = s.stage g := rfl

@[simp] theorem State.head_placeResult (s : State) (r : ResultRec) (h : Head) : (s.placeResult r).head h = s.head h := rfl
@[simp] theorem State.stage_placeResult (s : State) (r : ResultRec) (g : Stage) :
    (s.placeResult r).stage g = s.stage g := rfl

@[simp] theorem State.head_pushReply (s : State) (r : Reply) (h : Head) : (s.pushReply r).head h = s.head h := rfl
@[simp] theorem State.stage_pushReply (s : State) (r : Reply) (g : Stage) : (s.pushReply r).stage g = s.stage g := rfl
@[simp] theorem State.pushReply_now (s : State) (r : Reply) : (s.pushReply r).now = s.now := rfl
@[simp] theorem State.pushReply_pending (s : State) (r : Reply) : (s.pushReply r).pending = s.pending := rfl

/-! ## Line inputs -/

@[simp] theorem State.input_setInput_same (s : State) (i : LineInput) (x : Input) : (s.setInput i x).input i = x := by
  cases i <;> simp [State.input, State.setInput, State.modHead]

end Machine

end Sys2Proof
end

