-- ==== Sys2Proof/Laws/Commands.lean ====
section
/-! SUPPORT. What a command can answer: the clock, the reset that holds the part, a timer's expiry, and a request's reply. A
proof about a command cites these and unfolds neither `atTime`, `atExpiry` nor `respond`. -/

namespace Sys2Proof.Machine

/-! ## Commands at a time and at a timer's expiry -/

/-- A command at a time acts on a part not held in reset. -/
theorem atTime_run {s : State} (run : s.inReset = false) (time : Nat) (f : State → State) :
    atTime time s f = .next (f (s.advance time)) := by
  simp [atTime, run]

/-- A part held in reset lets only the clock move. -/
theorem atTime_held {s : State} (held : s.inReset = true) (time : Nat) (f : State → State) :
    atTime time s f = .next (s.advance time) := by
  simp [atTime, held]

/-- A command at a time always answers a next state. -/
theorem atTime_cases (time : Nat) (s : State) (f : State → State) :
    (s.inReset = false ∧ atTime time s f = .next (f (s.advance time))) ∨
      (s.inReset = true ∧ atTime time s f = .next (s.advance time)) := by
  cases h : s.inReset
  · exact .inl ⟨rfl, atTime_run h time f⟩
  · exact .inr ⟨rfl, atTime_held h time f⟩

/-- A stopped timer gives no expiry. -/
theorem atExpiry_stopped {timer : Option Nat} (off : timer = none) (s : State) (f : State → State) :
    atExpiry timer s f = .next s := by
  simp [atExpiry, off]

/-- A running timer is taken at its expiry time on a part not held in reset. -/
theorem atExpiry_run {s : State} {timer : Option Nat} {e : Nat} (run : s.inReset = false) (on : timer = some e)
    (f : State → State) : atExpiry timer s f = .next (f (s.advance e)) := by
  simp [atExpiry, on, run]

/-- A timer's expiry always answers a next state. -/
theorem atExpiry_cases (timer : Option Nat) (s : State) (f : State → State) :
    (∃ e, timer = some e ∧ s.inReset = false ∧ atExpiry timer s f = .next (f (s.advance e))) ∨
      atExpiry timer s f = .next s := by
  cases timer with
  | none => exact .inr rfl
  | some e =>
    cases h : s.inReset
    · exact .inl ⟨e, rfl, rfl, atExpiry_run h rfl f⟩
    · right; simp [atExpiry, h]

/-- A store timer's expiry always answers a next state. -/
theorem atStoreExpiry_cases (timer : Option Nat) (s : State) (f : State → State) :
    (∃ e, timer = some e ∧ atStoreExpiry timer s f = .next (f (s.advance e))) ∨
      (timer = none ∧ atStoreExpiry timer s f = .next s) := by
  cases timer with
  | none => exact .inr ⟨rfl, rfl⟩
  | some e => exact .inl ⟨e, rfl, rfl⟩

/-! ## Requests -/

/-- A refused request: the owner's state with the refusal reply. -/
theorem respond_refuse {owner : State → State × Answer} {s t : State} {reason : Reason}
    (answer : owner s = (t, .refuse reason)) (k : Kind) (tag : Byte) (frame : Bool) :
    respond k tag frame owner s = t.pushReply
      { kind := 0x7F, tag := tag, payload := [BitVec.ofNat 8 k.code, BitVec.ofNat 8 reason.code],
        answersFrame := frame, resets := false } := by
  simp [respond, answer, Answer.reply]

/-- An accepted request: the owner's state with the accept reply. -/
theorem respond_accept {owner : State → State × Answer} {s t : State} {mark : Bool} {data : List Byte}
    (answer : owner s = (t, .accept mark data)) (k : Kind) (tag : Byte) (frame : Bool) :
    respond k tag frame owner s = t.pushReply
      { kind := BitVec.ofNat 8 k.code + 0x80, tag := tag, payload := BitVec.ofNat 8 (flagCode mark) :: data,
        answersFrame := frame, resets := decide (k = .reset) } := by
  simp [respond, answer, Answer.reply]

/-- A number that fits one byte stands as that byte. -/
theorem byteField_fits {v : Nat} (fits : v < 256) : byteField v = [BitVec.ofNat 8 v] := by
  simp [byteField, numField, fits, bytesBE]

/-- A flag stands as 0 or 1. -/
theorem flagField_eq (b : Bool) : flagField b = [if b then 0x01 else 0x00] := by
  cases b <;> simp [flagField, flagCode, byteField_fits]

/-! ## Acting on the heads in turn -/

/-- What every act keeps, the acts on the heads in turn keep. -/
theorem State.eachHead_keeps {P : State → Prop} {s : State} {test : State → Head → Bool} {act : Head → State → State}
    (start : P s) (keeps : ∀ (h : Head) (u : State), P u → test u h = true → P (act h u)) :
    P (s.eachHead test act) := by
  unfold State.eachHead
  generalize Head.all = hs
  induction hs generalizing s with
  | nil => exact start
  | cons h rest ih =>
    simp only [List.foldl_cons]
    apply ih
    by_cases c : test s h = true
    · simpa [c] using keeps h s start c
    · simpa [c] using start

/-- What every act keeps, a fold of acts keeps. -/
theorem foldl_keeps {α : Type} {P : State → Prop} {act : State → α → State} (xs : List α) {s : State} (start : P s)
    (keeps : ∀ (u : State) (x : α), P u → P (act u x)) : P (xs.foldl act s) := by
  induction xs generalizing s with
  | nil => exact start
  | cons x rest ih => exact ih (keeps s x start)

end Sys2Proof.Machine
end

