-- ==== Sys2Proof/Laws/Operations.lean ====
section
/-! SUPPORT. What each shared operation can do, said once: the event queue, the index tracker, the orders on a stage link,
the start check, end causes, the end of a joint, fetches, activation and the service of waiting fetches. The induction over
activations inside activations stands once, in `KeepsJobMoves`. -/

namespace Sys2Proof.Machine

/-! ## Events, results and ATTN (R170, R173, R175) -/

/-- ATTN stands for a record in either queue. -/
theorem ReportRec.withAttn_attn (r : ReportRec) :
    r.withAttn.attn = true ↔ r.withAttn.results ≠ [] ∨ r.withAttn.events ≠ [] := by
  cases hr : r.results <;> cases he : r.events <;> simp [ReportRec.withAttn, hr, he]

@[simp] theorem ReportRec.withAttn_results (r : ReportRec) : r.withAttn.results = r.results := rfl
@[simp] theorem ReportRec.withAttn_events (r : ReportRec) : r.withAttn.events = r.events := rfl
@[simp] theorem ReportRec.withAttn_eventsLost (r : ReportRec) : r.withAttn.eventsLost = r.eventsLost := rfl

/-- An event is placed as the newest where there is room, and otherwise counted as lost. -/
theorem ReportRec.offer_cases (r : ReportRec) (e : Event) :
    (r.events.length < 16 ∧ r.offer e = { r with events := r.events ++ [e], attn := true }) ∨
      (16 ≤ r.events.length ∧ r.offer e = { r with eventsLost := min (r.eventsLost + 1) 255 }) := by
  by_cases room : r.events.length < 16
  · exact .inl ⟨room, by simp [ReportRec.offer, eventCapacity, room, ReportRec.withAttn]⟩
  · exact .inr ⟨by omega, by simp [ReportRec.offer, eventCapacity, room, maxByte]⟩

@[simp] theorem ReportRec.offer_results (r : ReportRec) (e : Event) : (r.offer e).results = r.results := by
  rcases r.offer_cases e with ⟨_, q⟩ | ⟨_, q⟩ <;> simp [q]

/-- A result record is placed as the newest, and ATTN is asserted. -/
theorem State.placeResult_eq (s : State) (r : ResultRec) :
    s.placeResult r = { s with report := { s.report with results := s.report.results ++ [r], attn := true } } := by
  simp [State.placeResult, ReportRec.withAttn]

/-! ## The index tracker (R21 to R24) -/

/-- A tag without an entry leaves the tracker as it is. -/
theorem State.trackerTake_none {s : State} {tag : Nat} (absent : trackerFind s.tracker tag = none)
    (f : IndexEntry → IndexEntry) : s.trackerTake tag f = s := by
  simp [State.trackerTake, absent]

/-- An entry that stays open after the change is put back. -/
theorem State.trackerTake_open {s : State} {tag : Nat} {e : IndexEntry} (found : trackerFind s.tracker tag = some e)
    (f : IndexEntry → IndexEntry) (stays : ((f e).closed && decide ((f e).outstanding = 0)) = false) :
    s.trackerTake tag f = { s with tracker := trackerPut s.tracker (f e) } := by
  simp [State.trackerTake, found, stays]

/-- A closed entry with nothing outstanding is removed, and INDEX_DONE is raised with its counts. -/
theorem State.trackerTake_done {s : State} {tag : Nat} {e : IndexEntry} (found : trackerFind s.tracker tag = some e)
    (f : IndexEntry → IndexEntry) (ends : ((f e).closed && decide ((f e).outstanding = 0)) = true) :
    s.trackerTake tag f = ({ s with tracker := trackerDrop s.tracker tag } : State).raise
      (.indexDone (f e).tag (f e).ended (f e).failed) := by
  simp [State.trackerTake, found, ends]

/-- The tracker's change touches the tracker and the event queue alone. -/
theorem State.trackerTake_only (s : State) (tag : Nat) (f : IndexEntry → IndexEntry) :
    ∃ tr rep, s.trackerTake tag f = { s with tracker := tr, report := rep } ∧ rep.results = s.report.results := by
  cases found : trackerFind s.tracker tag with
  | none => exact ⟨s.tracker, s.report, State.trackerTake_none found f, rfl⟩
  | some e =>
    cases c : ((f e).closed && decide ((f e).outstanding = 0)) with
    | false => exact ⟨_, s.report, State.trackerTake_open found f c, rfl⟩
    | true => exact ⟨_, _, State.trackerTake_done found f c, by simp⟩

/-- Jobs that leave without activation touch the tracker and the event queue alone. -/
theorem State.leaveJobs_only (s : State) (jobs : List Job) :
    ∃ tr rep, s.leaveJobs jobs = { s with tracker := tr, report := rep } ∧ rep.results = s.report.results := by
  unfold State.leaveJobs
  induction jobs generalizing s with
  | nil => exact ⟨s.tracker, s.report, rfl, rfl⟩
  | cons j rest ih =>
    obtain ⟨tr, rep, q, same⟩ := s.trackerTake_only j.indexTag IndexEntry.leave
    obtain ⟨tr', rep', q', same'⟩ := ih (s.trackerTake j.indexTag IndexEntry.leave)
    exact ⟨tr', rep', by rw [List.foldl_cons, q', q], by rw [same', q]; exact same⟩

/-! ## Orders on a stage link (R114) -/

/-- A cut order goes out on the head's stage, and the segment in flight, if any, is marked cut. -/
theorem State.cutSegment_eq (s : State) (h : Head) :
    s.cutSegment h = s.setStage (s.stageOf h)
      { s.stage (s.stageOf h) with orders := (s.stage (s.stageOf h)).orders ++ [.cut],
                                   segment := (s.stage (s.stageOf h)).segment.map fun x => { x with cut := true } } := by
  simp [State.cutSegment, State.send, State.modStage]

/-- Telling a joint to end sends the cut order and puts the head in STOPPING (R15). -/
theorem State.stopJoint_eq (s : State) (h : Head) :
    s.stopJoint h = (s.cutSegment h).setHead h { s.head h with mode := .stopping } := by
  simp [State.stopJoint, State.modHead, State.cutSegment_eq]

/-! ## The start check (R13) -/

/-- The start check starts the head's joint where all conditions hold, and otherwise changes nothing. -/
theorem State.startCheck_cases (s : State) (h : Head) :
    (s.canStart h = true ∧ s.startCheck h = s.setHead h ((s.head h).start s.now)) ∨
      (s.canStart h = false ∧ s.startCheck h = s) := by
  cases c : s.canStart h <;> simp [State.startCheck, c, State.modHead]

/-! ## The end of a joint (R18) -/

/-- A head without a joint has none to end. -/
theorem State.endCore_none {s : State} {h : Head} (idle : (s.head h).joint = none) (o : JointOutcome) :
    s.endCore h o = s := by
  simp [State.endCore, idle]

/-- The end of a joint places its result as the newest record, changes the head as `HeadRec.endJoint` says, withdraws the
head's fetch, and beyond that touches the tracker and the event queue alone. -/
theorem State.endCore_some {s : State} {h : Head} {j : Joint} (active : (s.head h).joint = some j) (o : JointOutcome) :
    ∃ tr rep, s.endCore h o =
        (({ s with tracker := tr, report := rep } : State).setHead h ((s.head h).endJoint o)).withdrawFetch h ∧
      rep.results = s.report.results ++ [resultOf s.now h (s.head h).tuning.driftCount j o] := by
  obtain ⟨tr, rep, q, same⟩ :=
    (s.placeResult (resultOf s.now h (s.head h).tuning.driftCount j o)).trackerTake_only j.job.indexTag (·.endJoint o)
  simp only [State.endCore, active, q]
  rw [State.placeResult_eq] at same
  by_cases c : reachesLimit (s.head h).faultCount (s.head h).settings.faultLimit o = true
  · exact ⟨tr, rep.offer (.headFault h), by simp only [c, if_true]; rfl, by simpa using same⟩
  · exact ⟨tr, rep, by simp only [c]; rfl, same⟩

/-! ## End causes (R15, R16) -/

/-- A cause whose row does not list the head's state is dropped. -/
theorem State.takeCause_dropped {s : State} {h : Head} {o : JointOutcome}
    (out : takenIn s.cell.motionPolicy o (s.head h).mode = false) : s.takeCause h o = s := by
  simp [State.takeCause, out]

/-- A cause taken in STOPPING ends the joint with the cause it recorded where it ends joints at once, and is dropped
otherwise. -/
theorem State.takeCause_stopping {s : State} {h : Head} {o : JointOutcome}
    (taken : takenIn s.cell.motionPolicy o (s.head h).mode = true) (stopping : (s.head h).mode = .stopping) :
    s.takeCause h o = if o.atOnce then s.endRecorded h else s := by
  rw [State.takeCause, if_pos taken, if_pos stopping]

/-- A cause taken outside STOPPING is recorded; the joint ends at once, or is told to end where its segment is in
flight. -/
theorem State.takeCause_taken {s : State} {h : Head} {o : JointOutcome}
    (taken : takenIn s.cell.motionPolicy o (s.head h).mode = true) (running : (s.head h).mode ≠ .stopping) :
    s.takeCause h o =
      if o.atOnce || !s.inFlight h then (s.modJoint h fun j => { j with cause := some o }).endJoint h o
      else (s.modJoint h fun j => { j with cause := some o }).stopJoint h := by
  rw [State.takeCause, if_pos taken, if_neg running]

/-! ## Fetches (R11, R181, R182) -/

/-- A served fetch loads a valid entry's recipe with its start check, ends an ARMED joint without one, and otherwise
changes nothing. -/
theorem State.serveFetch_cases (finish : Head → JointOutcome → State → State) (s : State) (f : Fetch) :
    (∃ r, s.store.fetched f.entry = some r ∧ s.serveFetch finish f = (s.modJoint f.head (·.load r)).startCheck f.head) ∨
      (s.store.fetched f.entry = none ∧ (s.head f.head).mode = .armed ∧
        s.serveFetch finish f = finish f.head .recipeMissing s) ∨
      (s.store.fetched f.entry = none ∧ (s.head f.head).mode ≠ .armed ∧ s.serveFetch finish f = s) := by
  cases e : s.store.fetched f.entry with
  | some r => exact .inl ⟨r, rfl, by simp [State.serveFetch, e, State.loadRecipe]⟩
  | none =>
    by_cases m : (s.head f.head).mode = .armed
    · exact .inr (.inl ⟨rfl, m, by simp [State.serveFetch, e, m]⟩)
    · exact .inr (.inr ⟨rfl, m, by simp [State.serveFetch, e, m]⟩)

/-- The store serves a fetch at once, queues it, or suspends its erase and queues it. -/
theorem State.takeFetch_cases (finish : Head → JointOutcome → State → State) (s : State) (f : Fetch) :
    s.takeFetch finish f = s.serveFetch finish f ∨ s.takeFetch finish f = s.queueFetch f ∨
      (s.store.mode = .erasing ∧ s.cell.eraseSuspend = true ∧ s.takeFetch finish f = s.suspendErase.queueFetch f) := by
  cases m : s.store.mode <;> cases e : s.store.erases f.entry <;> cases x : s.cell.eraseSuspend <;>
    simp [State.takeFetch, m, e, x]

/-! ## Activations, fetches and ends in any order -/

/-- What the moves of the job manager keep: a job activated, a recipe loaded, a joint started, a joint ended, a fetch put at
the tail of the waiting list, and an erase suspended for it. Activation and the service of fetches are made of these
moves. -/
structure KeepsJobMoves (P : State → Prop) : Prop where
  activates : ∀ {s h job rest}, P s → s.canActivate h = true → (s.head h).queue = job :: rest →
    P (s.setHead h ((s.head h).activate s.now job rest))
  loads : ∀ {s h r}, P s → P (s.modJoint h (·.load r))
  starts : ∀ {s h}, P s → s.canStart h = true → P (s.setHead h ((s.head h).start s.now))
  ends : ∀ {s h o}, P s → P (s.endCore h o)
  queues : ∀ {s f}, P s → P (s.queueFetch f)
  suspends : ∀ {s}, P s → P s.suspendErase

namespace KeepsJobMoves

variable {P : State → Prop}

/-- The start check keeps what the moves keep. -/
theorem startCheck (k : KeepsJobMoves P) {s : State} (p : P s) (h : Head) : P (s.startCheck h) := by
  rcases s.startCheck_cases h with ⟨c, q⟩ | ⟨_, q⟩
  · rw [q]; exact k.starts p c
  · rwa [q]

/-- The start checks keep what the moves keep. -/
theorem startChecks (k : KeepsJobMoves P) {s : State} (p : P s) (hs : List Head) : P (s.startChecks hs) :=
  foldl_keeps hs p fun _ h p => k.startCheck p h

/-- The service of a fetch keeps what the moves and its end keep. -/
theorem serveFetch (k : KeepsJobMoves P) {finish : Head → JointOutcome → State → State}
    (end_ : ∀ {s h o}, P s → P (finish h o s)) {s : State} (p : P s) (f : Fetch) : P (s.serveFetch finish f) := by
  unfold State.serveFetch
  split
  · exact k.startCheck (k.loads p) _
  · split
    · exact end_ p
    · exact p

/-- The store's taking of a fetch keeps what the moves and its end keep. -/
theorem takeFetch (k : KeepsJobMoves P) {finish : Head → JointOutcome → State → State}
    (end_ : ∀ {s h o}, P s → P (finish h o s)) {s : State} (p : P s) (f : Fetch) : P (s.takeFetch finish f) := by
  unfold State.takeFetch
  split
  · exact k.serveFetch end_ p f
  · exact k.queues p
  · split
    · exact k.serveFetch end_ p f
    · split
      · exact k.queues (k.suspends p)
      · exact k.queues p
  · split
    · exact k.serveFetch end_ p f
    · exact k.queues p

/-- An activation keeps what the moves and its end keep. -/
theorem activate (k : KeepsJobMoves P) {finish : Head → JointOutcome → State → State}
    (end_ : ∀ {s h o}, P s → P (finish h o s)) {s : State} (p : P s) {h : Head} (can : s.canActivate h = true) :
    P (s.activate finish h) := by
  unfold State.activate
  split
  · exact p
  · exact k.takeFetch end_ (k.activates p can ‹_›) _

/-- A bounded re-try keeps what the moves keep. -/
theorem retryWithin (k : KeepsJobMoves P) (n : Nat) {s : State} (p : P s) : P (State.retryWithin n s) := by
  induction n generalizing s with
  | zero => exact p
  | succ n ih => exact State.eachHead_keeps p fun h u pu can => k.activate (fun q => ih (k.ends q)) pu can

/-- A re-try keeps what the moves keep. -/
theorem retry (k : KeepsJobMoves P) {s : State} (p : P s) : P s.retry := k.retryWithin _ p

/-- The end of a joint with its re-try keeps what the moves keep. -/
theorem endJoint (k : KeepsJobMoves P) {s : State} (p : P s) (h : Head) (o : JointOutcome) : P (s.endJoint h o) :=
  k.retry (k.ends p)

/-- The end with the recorded cause keeps what the moves keep. -/
theorem endRecorded (k : KeepsJobMoves P) {s : State} (p : P s) (h : Head) : P (s.endRecorded h) := by
  unfold State.endRecorded
  split
  · split
    · exact k.endJoint p h _
    · exact p
  · exact p

/-- A cause taken keeps what the moves, its recording and its cut order keep. -/
theorem takeCause (k : KeepsJobMoves P)
    (records : ∀ {s h o}, P s → P (s.modJoint h fun j => { j with cause := some o }))
    (stops : ∀ {s h}, P s → s.inFlight h = true → P (s.stopJoint h)) {s : State} (p : P s) (h : Head)
    (o : JointOutcome) : P (s.takeCause h o) := by
  unfold State.takeCause
  split
  · split
    · split
      · exact k.endRecorded p h
      · exact p
    · split
      · exact k.endJoint (records p) h o
      · refine stops (records p) ?_
        rename_i c
        cases e : s.inFlight h
        · simp [e] at c
        · simpa [State.inFlight, State.modJoint, State.modHead, State.stageOf] using e
  · exact p

/-- The service of the waiting fetches keeps what the moves and the taking of a fetch from the list keep. -/
theorem serveWaiting (k : KeepsJobMoves P)
    (pops : ∀ {s f rest}, P s → s.store.waiting = f :: rest →
      P { s with store := { s.store with waiting := rest } }) (n : Nat) {s : State} (p : P s) :
    P (State.serveWaiting n s) := by
  induction n generalizing s with
  | zero => exact p
  | succ n ih =>
    unfold State.serveWaiting
    split
    · exact p
    · exact ih (k.serveFetch (fun q => k.endJoint q _ _) (pops p ‹_›) _)

end KeepsJobMoves

/-! ## What the job manager's moves never touch -/

/-- What activations, fetches and ends of joints leave as it was: the clock, the model's own fields, the link, the cell's
inputs and modes, both stages, every head's settings and lines, and the entries of the store with its operation. -/
structure SameAround (s t : State) : Prop where
  now : t.now = s.now
  inReset : t.inReset = s.inReset
  choices : t.choices = s.choices
  link : t.link = s.link
  cell : t.cell = s.cell
  stages : t.stages = s.stages
  pending : t.pending = s.pending
  settings : ∀ h, (t.head h).settings = (s.head h).settings
  clamp : ∀ h, (t.head h).line.clamp = (s.head h).line.clamp
  flow : ∀ h, (t.head h).line.flow = (s.head h).line.flow
  entries : t.store.entries = s.store.entries
  op : t.store.op = s.store.op

namespace SameAround

/-- Nothing around a state differs from itself. -/
protected theorem refl (s : State) : SameAround s s :=
  ⟨rfl, rfl, rfl, rfl, rfl, rfl, rfl, fun _ => rfl, fun _ => rfl, fun _ => rfl, rfl, rfl⟩

/-- A head's record that keeps its settings and its inputs keeps all around. -/
theorem setHead {s t : State} (k : SameAround s t) (h : Head) {r : HeadRec} (settings : r.settings = (t.head h).settings)
    (clamp : r.line.clamp = (t.head h).line.clamp) (flow : r.line.flow = (t.head h).line.flow) :
    SameAround s (t.setHead h r) := by
  refine ⟨k.now, k.inReset, k.choices, k.link, k.cell, k.stages, k.pending, ?_, ?_, ?_, k.entries, k.op⟩ <;> intro i <;>
    rw [State.head_setHead] <;> split
  · subst i; exact settings.trans (k.settings h)
  · exact k.settings i
  · subst i; exact clamp.trans (k.clamp h)
  · exact k.clamp i
  · subst i; exact flow.trans (k.flow h)
  · exact k.flow i

/-- The end of a joint keeps all around. -/
theorem endCore {s t : State} (k : SameAround s t) (h : Head) (o : JointOutcome) : SameAround s (t.endCore h o) := by
  cases active : (t.head h).joint with
  | none => rwa [State.endCore_none active]
  | some j =>
    obtain ⟨tr, rep, q, _⟩ := State.endCore_some active o
    rw [q]
    have base : SameAround s { t with tracker := tr, report := rep } :=
      ⟨k.now, k.inReset, k.choices, k.link, k.cell, k.stages, k.pending, k.settings, k.clamp, k.flow, k.entries, k.op⟩
    have set := base.setHead h (r := (t.head h).endJoint o) rfl rfl rfl
    exact ⟨set.now, set.inReset, set.choices, set.link, set.cell, set.stages, set.pending, set.settings, set.clamp,
      set.flow, set.entries, set.op⟩

/-- The job manager's moves keep all around. -/
theorem keepsJobMoves (s : State) : KeepsJobMoves (SameAround s) where
  activates k _ _ := k.setHead _ rfl rfl rfl
  loads k := by rw [State.modJoint_eq]; exact k.setHead _ rfl rfl rfl
  starts k _ := k.setHead _ rfl rfl rfl
  ends k := k.endCore _ _
  queues k := ⟨k.now, k.inReset, k.choices, k.link, k.cell, k.stages, k.pending, k.settings, k.clamp, k.flow, k.entries, k.op⟩
  suspends k :=
    ⟨k.now, k.inReset, k.choices, k.link, k.cell, k.stages, k.pending, k.settings, k.clamp, k.flow, k.entries, k.op⟩

end SameAround

/-- A re-try changes nothing around the joints. -/
theorem State.retry_around (s : State) : SameAround s s.retry := (SameAround.keepsJobMoves s).retry (.refl s)

/-- The end of a joint with its re-try changes nothing around the joints. -/
theorem State.endJoint_around (s : State) (h : Head) (o : JointOutcome) : SameAround s (s.endJoint h o) :=
  (SameAround.keepsJobMoves s).endJoint (.refl s) h o

/-- The start checks change nothing around the joints. -/
theorem State.startChecks_around (s : State) (hs : List Head) : SameAround s (s.startChecks hs) :=
  (SameAround.keepsJobMoves s).startChecks (.refl s) hs

/-- The service of the waiting fetches changes nothing around the joints. -/
theorem State.serveAll_around (s : State) : SameAround s s.serveAll :=
  (SameAround.keepsJobMoves s).serveWaiting
    (fun k _ => ⟨k.now, k.inReset, k.choices, k.link, k.cell, k.stages, k.pending, k.settings, k.clamp, k.flow, k.entries,
      k.op⟩) _ (.refl s)

/-! ## The slot decision (R76 to R89) -/

/-- `t` follows `s` by a slot decision on stage `g`: the stage takes a new record with the mode, the frames, the running
state and the deferral it had, and at most one head's joint takes a decision record. -/
def DecidesOnly (s : State) (g : Stage) (t : State) : Prop :=
  ∃ r, (t = s.setStage g r ∨ ∃ h d sent, t = (s.setStage g r).modJoint h (·.afterDecision d sent)) ∧
    r.mode = (s.stage g).mode ∧ r.running = (s.stage g).running ∧ r.active = (s.stage g).active ∧
    r.pendingFrame = (s.stage g).pendingFrame ∧ r.deferred = (s.stage g).deferred

/-- A decision that follows a change of the pointer or the decision record alone is still one decision. -/
theorem DecidesOnly.after {s t : State} {g : Stage} {q : StageRec} (d : DecidesOnly (s.setStage g q) g t)
    (mode : q.mode = (s.stage g).mode) (running : q.running = (s.stage g).running)
    (active : q.active = (s.stage g).active) (pending : q.pendingFrame = (s.stage g).pendingFrame)
    (deferred : q.deferred = (s.stage g).deferred) : DecidesOnly s g t := by
  obtain ⟨r, e, m, ru, a, p, f⟩ := d
  rw [State.setStage_setStage] at e
  rw [State.stage_setStage_same] at m ru a p f
  exact ⟨r, e, m.trans mode, ru.trans running, a.trans active, p.trans pending, f.trans deferred⟩

/-- No change is a decision that changes nothing. -/
theorem DecidesOnly.refl (s : State) (g : Stage) : DecidesOnly s g s :=
  ⟨s.stage g, .inl (by simp), rfl, rfl, rfl, rfl, rfl⟩

/-- A segment's hand-over or its absence changes the stage it is decided for, and nothing else. -/
theorem State.feed_only (s : State) (g : Stage) (run : Running) (c : Choice) (h : Head) (power : Nat)
    (longest : Option Nat) (o : DecisionOutcome) :
    ∃ r, s.feed g run c h power longest o = s.setStage g r ∧ r.mode = (s.stage g).mode ∧
      r.running = (s.stage g).running ∧ r.active = (s.stage g).active ∧
      r.pendingFrame = (s.stage g).pendingFrame ∧ r.deferred = (s.stage g).deferred := by
  unfold State.feed
  dsimp only
  split
  · exact ⟨_, rfl, rfl, rfl, rfl, rfl, rfl⟩
  · simp only [State.recordDecision, State.handOver, State.send, State.modStage, State.stage_setStage_same,
      State.setStage_setStage]
    exact ⟨_, rfl, rfl, rfl, rfl, rfl, rfl⟩

/-- The decision for a recipient. -/
theorem State.decideFor_only (s : State) (g : Stage) (run : Running) (c : Choice) (h : Head) :
    DecidesOnly s g (s.decideFor g run c h) := by
  unfold State.decideFor
  dsimp only
  split
  · obtain ⟨r, q, f⟩ := s.feed_only g run c h _ _ .probeSent
    exact ⟨r, .inl q, f⟩
  · split
    · rename_i d _
      obtain ⟨r, q, f⟩ := s.feed_only g run c h d.setpoint none .heatSent
      exact ⟨r, .inr ⟨h, d, _, by rw [q]⟩, f⟩
    · exact .refl s g

/-- The slot decision. -/
theorem State.decideSlot_only (s : State) (g : Stage) : DecidesOnly s g (s.decideSlot g) := by
  unfold State.decideSlot
  split
  · split
    · dsimp only
      split
      · exact (State.decideFor_only _ _ _ _ _).after rfl rfl rfl rfl rfl
      · exact DecidesOnly.after (q := { s.stage g with pointer := _ }) ⟨_, .inl rfl, rfl, rfl, rfl, rfl, rfl⟩
          rfl rfl rfl rfl rfl
    · exact .refl s g
  · exact .refl s g

/-- The decision is made at once where no segment is in flight, and is deferred otherwise (R90). -/
theorem State.decideOrDefer_cases (s : State) (g : Stage) :
    ((s.stage g).segment.isSome = true ∧
        s.decideOrDefer g = s.setStage g { s.stage g with deferred := true }) ∨
      ((s.stage g).segment = none ∧ s.decideOrDefer g = s.decideSlot g) := by
  cases e : (s.stage g).segment <;> simp [State.decideOrDefer, e, State.modStage]

/-- A pending frame is adopted with its event, and without one nothing changes (R95). -/
theorem State.adoptPending_cases (s : State) (g : Stage) :
    (∃ f, (s.stage g).pendingFrame = some f ∧ s.adoptPending g =
        (s.setStage g { s.stage g with active := some f, pendingFrame := none }).raise (.frameAdopted g)) ∨
      ((s.stage g).pendingFrame = none ∧ s.adoptPending g = s) := by
  cases e : (s.stage g).pendingFrame <;> simp [State.adoptPending, e, State.modStage]

/-- The slot that starts becomes the running one, and its decision follows (R74, R76, R90). -/
theorem State.startSlot_of {s : State} {g : Stage} {frame : List Slot} {n : Nat} {slot : Slot}
    (active : (s.stage g).active = some frame) (at_ : slotAt frame n = some slot) (t : Nat) :
    s.startSlot g n t = (s.setStage g { s.stage g with running := some (runningOf n slot t) }).decideOrDefer g := by
  simp [State.startSlot, active, at_, State.modStage]

/-- Without an active frame no slot starts. -/
theorem State.startFrame_none {s : State} {g : Stage} (none_ : (s.stage g).active = none) (t : Nat) :
    s.startFrame g t = s := by
  simp [State.startFrame, none_]

/-! ## A stage's entries to FAULT and OFF (R103, R106, R108) -/

/-- Steps 1 to 4 of R106 change the stage alone. -/
theorem State.faultStage_eq (s : State) (g : Stage) (cause : FaultCause) (code : Nat) :
    s.faultStage g cause code = s.setStage g { s.stage g with
      mode := .fault, settleTimer := none, segment := none, completionTimer := none,
      fault := some { cause := cause, tripCode := code, time := s.now, cleared := false },
      orders := (s.stage g).orders ++ [.busOff] } := by
  simp [State.faultStage, State.send, State.modStage]

/-- A stage that leaves READY stops its frame and adopts a pending one; any other keeps them. -/
theorem State.stopIfReady_cases (s : State) (g : Stage) (before : StageMode) :
    (before = .ready ∧ s.stopIfReady g before =
        (s.setStage g { s.stage g with running := none, deferred := false }).adoptPending g) ∨
      (before ≠ .ready ∧ s.stopIfReady g before = s) := by
  by_cases e : before = .ready <;> simp [State.stopIfReady, e, State.stopFrame, State.modStage]

/-- A SETTLING or READY stage is turned off; an OFF or FAULT stage stays. -/
theorem State.estopStage_cases (s : State) (g : Stage) :
    (((s.stage g).mode = .settling ∨ (s.stage g).mode = .ready) ∧ s.estopStage g = s.turnOff g) ∨
      (((s.stage g).mode = .off ∨ (s.stage g).mode = .fault) ∧ s.estopStage g = s) := by
  cases e : (s.stage g).mode <;> simp [State.estopStage, e]

/-! ## Requests that name a head or a stage -/

/-- A head number of a request names its head, or the request is refused with BAD_HEAD. -/
theorem withHead_cases (n : Nat) (owner : Head → State → State × Answer) (s : State) :
    (∃ h, Head.ofNum? n = some h ∧ withHead n owner s = owner h s) ∨
      (Head.ofNum? n = none ∧ withHead n owner s = (s, .refuse .badHead)) := by
  cases e : Head.ofNum? n <;> simp [withHead, e]

/-- A stage number of a request names its stage, or the request is refused with BAD_FIELD. -/
theorem withStage_cases (n : Nat) (owner : Stage → State → State × Answer) (s : State) :
    (∃ g, Stage.ofNum? n = some g ∧ withStage n owner s = owner g s) ∨
      (Stage.ofNum? n = none ∧ withStage n owner s = (s, .refuse .badField)) := by
  cases e : Stage.ofNum? n <;> simp [withStage, e]

/-! ## Line inputs (R152) -/

/-- A filter that ends takes the pin's level; its change acts unless the level was already the taken one. -/
theorem State.takeChange_cases (s : State) (i : LineInput) (level : Level) (act : State → State) :
    ((s.input i).taken = some level ∧ s.takeChange i level act = s.takeLevel i) ∨
      ((s.input i).taken ≠ some level ∧ s.takeChange i level act = act (s.takeLevel i)) := by
  by_cases e : (s.input i).taken = some level <;> simp [State.takeChange, e]

/-! ## The receive buffer (R188) -/

/-- A complete frame is taken with the buffer empty, waits behind one held, and is dropped and counted behind two. -/
theorem State.acceptFrame_cases (s : State) (f : LinkFrame) :
    (s.link.processing = none ∧ s.acceptFrame f = s.process f) ∨
      (s.link.processing.isSome ∧ s.link.waiting = none ∧
        s.acceptFrame f = { s with link := { s.link with waiting := some f } }) ∨
      (s.link.processing.isSome ∧ s.link.waiting.isSome ∧
        s.acceptFrame f = { s with link := { s.link with overruns := min (s.link.overruns + 1) 65535 } }) := by
  cases p : s.link.processing <;> cases w : s.link.waiting <;> simp [State.acceptFrame, p, w, maxWord]

end Sys2Proof.Machine
end

