-- ==== Sys2Proof/Laws/Frames.lean ====
section
/-! SUPPORT. Which slot of a frame starts (R73, R74, R95). A proof about a slot start cites these lemmas and does not
unfold the search for the next live slot. -/

namespace Sys2Proof.Machine

/-- The next live slot after slot `r` is slot `n`, where every slot between them has length 0 (R73). -/
theorem nextLive_some {f : List Slot} {r n : Nat} {x : Slot} (after : r < n) (at_ : f[n - 1]? = some x)
    (live : x.length ≠ 0) (between : ∀ k y, r ≤ k → k + 1 < n → f[k]? = some y → y.length = 0) :
    nextLive f r = some n := by
  obtain ⟨inside, _⟩ := List.getElem?_eq_some_iff.1 at_
  simp only [nextLive, liveSlots, List.find?_map, List.find?_filter]
  have found := (List.find?_range_eq_some (n := f.length) (i := n - 1)
    (p := fun a => decide ((match f[a]? with | some x => decide (x.length ≠ 0) | none => false) = true ∧
      ((fun m => decide (r < m)) ∘ fun x => x + 1) a = true))).2 (by
    refine ⟨?_, by simpa using inside, fun j below => ?_⟩
    · simp [at_, live]; omega
    · simp
      by_cases late : r ≤ j
      · obtain ⟨y, here⟩ : ∃ y, f[j]? = some y := ⟨_, List.getElem?_eq_getElem (by omega)⟩
        simp [here, between j y late (by omega) here]
      · right; omega)
  refine (congrArg (Option.map fun x => x + 1) found).trans ?_
  simp; omega

/-- No live slot follows slot `r`: a frame boundary (R73). -/
theorem nextLive_none {f : List Slot} {r : Nat} (dead : ∀ k y, r ≤ k → f[k]? = some y → y.length = 0) :
    nextLive f r = none := by
  simp only [nextLive, liveSlots, List.find?_eq_none, List.mem_map, List.mem_filter, List.mem_range]
  rintro m ⟨i, ⟨inside, live⟩, rfl⟩
  obtain ⟨y, here⟩ : ∃ y, f[i]? = some y := ⟨_, List.getElem?_eq_getElem (by omega)⟩
  simp [here] at live
  by_cases late : r ≤ i
  · exact absurd (dead i y late here) live
  · simp; omega

/-- The slot of a number in the list. -/
theorem slotAt_of {f : List Slot} {n : Nat} {x : Slot} (numbered : 0 < n) (at_ : f[n - 1]? = some x) :
    slotAt f n = some x := by
  simp [slotAt, at_]; omega

/-- The first live slot is the next live slot after none (R74). -/
theorem firstLive.next {f : List Slot} {n : Nat} {x : Slot} (first : firstLive f n x) :
    nextLive f 0 = some n ∧ slotAt f n = some x :=
  ⟨nextLive_some first.1 first.2.1 first.2.2.1 fun k y _ => first.2.2.2 k y, slotAt_of first.1 first.2.1⟩

/-- Every frame with a live slot has a first one. -/
theorem firstLive_exists : ∀ {f : List Slot}, (∃ y ∈ f, y.length ≠ 0) → ∃ n x, firstLive f n x := by
  intro f
  induction f with
  | nil => rintro ⟨y, inside, _⟩; cases inside
  | cons y ys ih =>
    intro live
    by_cases dead : y.length = 0
    · obtain ⟨n, x, one, at_, long, before⟩ := ih (by
        obtain ⟨z, inside, long⟩ := live
        rcases List.mem_cons.1 inside with rfl | inside
        · exact absurd dead long
        · exact ⟨z, inside, long⟩)
      refine ⟨n + 1, x, by omega, ?_, long, fun k z below here => ?_⟩
      · obtain ⟨m, rfl⟩ : ∃ m, n = m + 1 := ⟨n - 1, by omega⟩
        simpa using at_
      · cases k with
        | zero => simp at here; subst here; exact dead
        | succ k => exact before k z (by omega) (by simpa using here)
    · exact ⟨1, y, by omega, rfl, dead, fun k _ below _ => by omega⟩

/-- The active frame starts with its first live slot (R74, R95). -/
theorem State.startFrame_first {s : State} {g : Stage} {frame : List Slot} {n : Nat} {x : Slot}
    (active : (s.stage g).active = some frame) (first : firstLive frame n x) (t : Nat) :
    s.startFrame g t =
      (s.setStage g { s.stage g with running := some (runningOf n x t) }).decideOrDefer g := by
  have here : s.startFrame g t = s.startSlot g n t := by simp only [State.startFrame, active, first.next.1]
  rw [here, State.startSlot_of active first.next.2]

end Sys2Proof.Machine
end

