-- ==== Sys2Proof/Laws/Phases.lean ====
section
/-! SUPPORT. What the heat law unit's walk through the phases can do (R35, R36, R40, R47): `Joint.movesOn` says it in words
of its own, and the walk answers exactly what it says. A proof about a phase exit or a lock cites `movesOn_iff`,
`Joint.exitPhase_movesOn` or `Joint.enterFirst_movesOn` and does not unfold the walk. -/

namespace Sys2Proof.Machine

/-- Closing a phase list closes its newest entry. -/
theorem closeLast_append (d e : Nat) (xs : List PhaseEntry) (x : PhaseEntry) :
    closeLast d e (xs ++ [x]) = xs ++ [{ x with duration := some d, energy := some e }] := by
  induction xs with
  | nil => rfl
  | cons y ys ih =>
    cases ys with
    | nil => rfl
    | cons z zs => simp [closeLast] at ih ⊢; exact ih

/-- The steps of R35 leave the joint in the phase. -/
theorem Joint.openPhase_entered (j : Joint) (now : Nat) (tf : Option Nat) (n : Nat) (p : Phase) :
    j.openPhase now tf n p = j.entered now tf n p := by
  cases p with
  | ramp rate f => rfl
  | soak e f => cases e <;> rfl
  | dwell d => rfl

/-- The steps 1 and 2 of R40 leave the joint with its phase closed. -/
theorem Joint.closePhase_closedAt (j : Joint) (now : Nat) : j.closePhase now = j.closedAt now := rfl

/-- The walk ends at a phase that does not end at its entry. -/
theorem enterPhases_stays {p : Phase} {tf : Option Nat} {band : Nat} (stays : p.stays tf band) (now n : Nat)
    (rest : List Phase) (j : Joint) :
    Joint.enterPhases now tf band (p :: rest) n j = (j.entered now tf n p, none) := by
  rw [← Joint.openPhase_entered]
  cases p with
  | ramp rate f =>
    cases tf with
    | none => rfl
    | some t =>
      have below := stays rate f t rfl rfl
      have unmet : rampMet t f.tEnd band = false := by simp [rampMet]; omega
      simp [Joint.enterPhases, unmet]
  | soak e f => cases tf <;> rfl
  | dwell d => cases tf <;> rfl

/-- The walk passes through a RAMP phase whose exit holds at its entry. -/
theorem enterPhases_passes {rate t band : Nat} {f : HeatFields} (met : f.tEnd ≤ t + band) (now n : Nat)
    (rest : List Phase) (j : Joint) :
    Joint.enterPhases now (some t) band (.ramp rate f :: rest) n j =
      Joint.enterPhases now (some t) band rest (n + 1)
        { j with phase := some n, phaseEntry := some now, entryEnergy := j.energy, exitPending := false,
                 durationTimer := none, limitTimer := none, tEntry := some t,
                 phaseList := j.phaseList ++ [{ number := n, duration := some 0, energy := some 0 }] } := by
  have met' : rampMet t f.tEnd band = true := by simpa [rampMet] using met
  simp [Joint.enterPhases, met', Joint.closePhase, Joint.openPhase, Joint.closedList, closeLast_append, Joint.elapsed,
    Joint.phaseEnergy]

/-- One phase of no length more, passed first. -/
theorem Joint.passed_succ (j : Joint) (now t n m : Nat) :
    j.passed now (some t) n (m + 1) =
      Joint.passed
        { j with phase := some (n + 1), phaseEntry := some now, entryEnergy := j.energy, exitPending := false,
                 durationTimer := none, limitTimer := none, tEntry := some t,
                 phaseList := j.phaseList ++ [{ number := n + 1, duration := some 0, energy := some 0 }] }
        now (some t) (n + 1) m := by
  cases m with
  | zero => simp [Joint.passed]
  | succ m =>
    simp [Joint.passed, List.range_succ_eq_map, Function.comp_def]
    exact ⟨by omega, fun k _ => by omega⟩

/-- No phase of no length lies behind the last phase. -/
theorem Recipe.passes_last {r : Recipe} {tf : Option Nat} {n m : Nat} (last : r.phases.length ≤ n)
    (passes : r.passes tf n m) : m = 0 := by
  cases m with
  | zero => rfl
  | succ m =>
    obtain ⟨rate, f, t, at_, _⟩ := passes 0 (by omega)
    rw [List.getElem?_eq_none (by omega)] at at_
    cases at_

/-- The walk from a phase with `d` phases behind it. -/
theorem movesOn_of_rest (r : Recipe) (now : Nat) (tf : Option Nat) : ∀ (d n : Nat) (j : Joint),
    r.phases.length = n + d ∨ (r.phases.length ≤ n ∧ d = 0) → ∀ k o, j.movesOn r now tf n k o ↔
      Joint.enterPhases now tf r.exitBand (r.phases.drop n) (n + 1) j = (k, o) := by
  intro d
  induction d with
  | zero =>
    intro n j left k o
    have last : r.phases.length ≤ n := by omega
    rw [List.drop_eq_nil_of_le last]
    simp only [Joint.enterPhases, Joint.recipeEnd, Prod.mk.injEq]
    constructor
    · rintro ⟨m, passes, ends⟩
      cases Recipe.passes_last last passes
      rcases ends with ⟨p, at_, _⟩ | ⟨_, joint, raised⟩
      · rw [List.getElem?_eq_none (by omega)] at at_; cases at_
      · exact ⟨by rw [joint]; rfl, raised.symm⟩
    · rintro ⟨joint, raised⟩
      exact ⟨0, fun k hk => absurd hk (by omega), .inr ⟨by omega, by rw [← joint]; rfl, raised.symm⟩⟩
  | succ d ih =>
    intro n j left k o
    have inside : n < r.phases.length := by omega
    obtain ⟨p, at_⟩ : ∃ p, r.phases[n]? = some p := ⟨_, List.getElem?_eq_getElem inside⟩
    have split : r.phases.drop n = p :: r.phases.drop (n + 1) := by
      rw [List.getElem?_eq_getElem inside] at at_
      rw [List.drop_eq_getElem_cons inside, Option.some.inj at_]
    rw [split]
    by_cases stays : p.stays tf r.exitBand
    · rw [enterPhases_stays stays]
      constructor
      · rintro ⟨m, passes, ends⟩
        cases m with
        | zero =>
          rcases ends with ⟨q, at', _, joint, none_⟩ | ⟨long, _⟩
          · rw [Nat.add_zero, at_] at at'; cases at'; rw [joint, none_]; rfl
          · omega
        | succ m =>
          obtain ⟨rate, f, t, at', present, met⟩ := passes 0 (by omega)
          rw [Nat.add_zero, at_] at at'; cases at'
          have := stays rate f t rfl present
          omega
      · intro e
        simp only [Prod.mk.injEq] at e
        exact ⟨0, fun k hk => absurd hk (by omega), .inl ⟨p, at_, stays, e.1.symm, e.2.symm⟩⟩
    · obtain ⟨rate, f, t, ramp, present, notBelow⟩ :
          ∃ rate f t, p = .ramp rate f ∧ tf = some t ∧ ¬ t + r.exitBand < f.tEnd := by
        apply Classical.byContradiction
        intro none_
        exact stays fun rate f t a b => Classical.byContradiction fun c => none_ ⟨rate, f, t, a, b, c⟩
      subst ramp present
      rw [enterPhases_passes (by omega), ← ih (n + 1) _ (by omega)]
      constructor
      · rintro ⟨m, passes, ends⟩
        cases m with
        | zero =>
          rcases ends with ⟨q, at', stay, _⟩ | ⟨long, _⟩
          · rw [Nat.add_zero, at_] at at'; cases at'
            have := stay rate f t rfl rfl
            omega
          · omega
        | succ m =>
          refine ⟨m, fun i hi => ?_, ?_⟩
          · have := passes (i + 1) (by omega)
            rwa [show n + (i + 1) = n + 1 + i by omega] at this
          · rw [Joint.passed_succ, show n + (m + 1) = n + 1 + m by omega] at ends
            exact ends
      · rintro ⟨m, passes, ends⟩
        refine ⟨m + 1, fun i hi => ?_, ?_⟩
        · cases i with
          | zero => exact ⟨rate, f, t, at_, rfl, by omega⟩
          | succ i =>
            have := passes i (by omega)
            rwa [show n + 1 + i = n + (i + 1) by omega] at this
        · rw [Joint.passed_succ, show n + (m + 1) = n + 1 + m by omega]
          exact ends

/-- The walk from phase `n` on does exactly what `movesOn` says. -/
theorem movesOn_iff (j : Joint) (r : Recipe) (now : Nat) (tf : Option Nat) (n : Nat) (k : Joint)
    (o : Option JointOutcome) : j.movesOn r now tf n k o ↔
      Joint.enterPhases now tf r.exitBand (r.phases.drop n) (n + 1) j = (k, o) := by
  by_cases within : n ≤ r.phases.length
  · exact movesOn_of_rest r now tf (r.phases.length - n) n j (by omega) k o
  · exact movesOn_of_rest r now tf 0 n j (by omega) k o

/-- A joint always moves on, in one way. -/
theorem movesOn_total (j : Joint) (r : Recipe) (now : Nat) (tf : Option Nat) (n : Nat) :
    ∃ k o, j.movesOn r now tf n k o :=
  ⟨_, _, (movesOn_iff j r now tf n _ _).2 rfl⟩

/-- A phase exit closes the phase, and the joint moves on (R40). -/
theorem Joint.exitPhase_movesOn {j k : Joint} {r : Recipe} {now n : Nat} {tf : Option Nat} {o : Option JointOutcome}
    (recipe : j.recipe = some r) (phase : j.phase = some n) (moves : (j.closedAt now).movesOn r now tf n k o) :
    j.exitPhase now tf = (k, o) := by
  simp only [Joint.exitPhase, recipe, phase, Joint.closePhase_closedAt]
  exact (movesOn_iff _ r now tf n k o).1 moves

/-- At the lock the joint moves on to its first phase (R34). -/
theorem Joint.enterFirst_movesOn {j k : Joint} {r : Recipe} {now : Nat} {tf : Option Nat} {o : Option JointOutcome}
    (recipe : j.recipe = some r) (moves : j.movesOn r now tf 0 k o) : j.enterFirst now tf = (k, o) := by
  simp only [Joint.enterFirst, recipe]
  exact (movesOn_iff j r now tf 0 k o).1 moves

end Sys2Proof.Machine
end

