-- ==== Sys2Proof/WellFormed.lean ====
section
/-! DEFINITION. When a command is well formed: its numbers fit the fields the manual gives them on the line
(R191, R192 for requests; R111, R113, R139 for stage and pyrometer messages). A value out of a request's own range is
still well formed, since the part takes it and refuses it. -/

namespace Sys2Proof

/-- The number fits one byte. -/
def fitsByte (n : Nat) : Bool := decide (n < 256)

/-- The number fits two bytes. -/
def fitsWord (n : Nat) : Bool := decide (n < 65536)

/-- An item is one code byte and a two-byte value (R191). -/
def Item.wf (i : Item) : Bool := fitsByte i.code && fitsWord i.value

/-- A slot of LOAD_FRAME is six bytes (R191). -/
def RawSlot.wf (s : RawSlot) : Bool :=
  fitsByte s.length && fitsByte s.rule && fitsByte s.first && fitsByte s.second && fitsByte s.fallback
    && fitsByte s.split

/-- The fields of a job record have the widths of R192. -/
def RawJob.wf (j : RawJob) : Bool :=
  fitsWord j.jobTag && fitsWord j.indexTag && fitsByte j.recipe && fitsByte j.startMode && fitsByte j.lastOfIndex
    && fitsWord j.armTimeout && fitsByte j.trim

/-- A segment report carries a load of 0 to 65,535 mΩ and an angle of −90 to +90 degrees (R111); the manual
gives its power and on-time no width, and the heat law unit limits both (R66). -/
def SegReport.wf (r : SegReport) : Bool :=
  decide (-90 ≤ r.angle) && decide (r.angle ≤ 90) && fitsWord r.load

/-- A reading is 0 to 4,095 °C (R139). -/
def Sample.wf : Sample → Bool
  | .reading c => decide (c ≤ 4095)
  | .underRange => true
  | .overRange => true
  | .sensorFault => true

/-- The command's operands fit the fields that carry them. -/
def Instr.wf : Instr → Bool
  | .identify _ _ => true
  | .getStatus _ _ => true
  | .reset _ _ => true
  | .setCell _ _ items => items.all Item.wf && decide (items.length ≤ 80)
  | .setHead _ _ head items => fitsByte head && items.all Item.wf && decide (items.length ≤ 79)
  | .setStage _ _ stage items => fitsByte stage && items.all Item.wf && decide (items.length ≤ 79)
  | .loadFrame _ _ stage slots => fitsByte stage && slots.all RawSlot.wf && decide (slots.length ≤ 39)
  | .submitJob _ _ head job => fitsByte head && job.wf
  | .cancelJob _ _ head jobTag => fitsByte head && fitsWord jobTag
  | .flushQueue _ _ head => fitsByte head
  | .startHeads _ _ _ => true
  | .hold _ _ => true
  | .resume _ _ => true
  | .powerOn _ _ stage => fitsByte stage
  | .powerOff _ _ stage => fitsByte stage
  | .clearFaultHead _ _ head => fitsByte head
  | .clearFaultStage _ _ stage => fitsByte stage
  | .clearFaultDevice _ _ => true
  | .getHead _ _ head => fitsByte head
  | .getStage _ _ stage => fitsByte stage
  | .getFrame _ _ stage => fitsByte stage
  | .fetchResults _ _ => true
  | .fetchEvents _ _ => true
  | .readRecipe _ _ entry => fitsByte entry
  | .programRecipe _ _ entry record => fitsByte entry && decide (15 ≤ record.length) && decide (record.length ≤ 111)
  | .eraseBank _ _ bank => fitsByte bank
  | .getStore _ _ => true
  | .clearStore _ _ => true
  | .setProtect _ _ working master => fitsByte working && fitsByte master
  | .frameReceived _ _ _ payload => decide (payload.length ≤ 240)
  | .gapTimerExpiry => true
  | .replySent _ => true
  | .resetLine _ _ => true
  | .powerOnReset _ _ => true
  | .busReport _ _ _ _ => true
  | .segmentReport _ _ _ report => report.wf
  | .tripReport _ _ _ code => fitsByte code
  | .settleTimerExpiry _ => true
  | .completionTimerExpiry _ => true
  | .slotTimerExpiry _ => true
  | .splitTimerExpiry _ => true
  | .armTimerExpiry _ => true
  | .durationTimerExpiry _ => true
  | .timeLimitExpiry _ => true
  | .pyrometerSample _ _ _ sample => sample.wf
  | .lostTimerExpiry _ => true
  | .lineInputChange _ _ _ => true
  | .initialLevelTaken _ => true
  | .estopAsserted => true
  | .estopReleased => true
  | .motionAsserted => true
  | .motionReleased => true
  | .clampFallingEdge _ => true
  | .clampRisingEdge _ => true
  | .flowFallingEdge _ => true
  | .flowRisingEdge _ => true
  | .keyChange => true
  | .flowGraceTimerExpiry _ => true
  | .programComplete _ => true
  | .eraseComplete _ => true
  | .suspendTimerExpiry => true
  | .byteReceived _ _ _ => true
  | .resetLineReleased _ => true

end Sys2Proof
end

