-- ==== Sys2Proof/Tests/Slice0.lean ====
section
/-! SUPPORT. Tests of the model on fixed values taken from the manual's tables and worked sequences, the smoke tests of
WellFormed with an ill-formed term for each check, and a witness for the hypotheses of each statement. -/

namespace Sys2Proof.Tests

open Sys2Proof Sys2Proof.Machine

/-! ## WellFormed: an ill-formed term for each check -/

theorem test_wf_item_code : Item.wf ⟨256, 0⟩ = false := by decide
theorem test_wf_item_value : Item.wf ⟨1, 65536⟩ = false := by decide
theorem test_wf_item_widest : Item.wf ⟨255, 65535⟩ = true := by decide
theorem test_wf_slot : ([⟨256, 1, 0, 0, 0, 0⟩, ⟨1, 256, 0, 0, 0, 0⟩, ⟨1, 1, 256, 0, 0, 0⟩, ⟨1, 1, 0, 256, 0, 0⟩,
    ⟨1, 1, 0, 0, 256, 0⟩, ⟨1, 1, 0, 0, 0, 256⟩] : List RawSlot).map RawSlot.wf = List.replicate 6 false := by decide
theorem test_wf_job : ([⟨65536, 1, 1, 1, 0, 0, 0⟩, ⟨1, 65536, 1, 1, 0, 0, 0⟩, ⟨1, 1, 256, 1, 0, 0, 0⟩,
    ⟨1, 1, 1, 256, 0, 0, 0⟩, ⟨1, 1, 1, 1, 256, 0, 0⟩, ⟨1, 1, 1, 1, 0, 65536, 0⟩, ⟨1, 1, 1, 1, 0, 0, 256⟩] :
    List RawJob).map RawJob.wf = List.replicate 7 false := by decide
theorem test_wf_report : ([⟨1, 1, -91, 1, false⟩, ⟨1, 1, 91, 1, false⟩, ⟨1, 1, 0, 65536, false⟩] :
    List SegReport).map SegReport.wf = List.replicate 3 false := by decide
theorem test_wf_reading : Sample.wf (.reading 4096) = false ∧ Sample.wf (.reading 4095) = true := by decide
theorem test_wf_requests : ([.setCell 0 0 [⟨256, 0⟩], .setCell 0 0 (List.replicate 81 ⟨1, 1⟩), .setHead 0 0 256 [],
    .setHead 0 0 0 [⟨256, 0⟩], .setHead 0 0 0 (List.replicate 80 ⟨1, 1⟩), .setStage 0 0 256 [],
    .setStage 0 0 0 [⟨256, 0⟩], .setStage 0 0 0 (List.replicate 80 ⟨1, 1⟩), .loadFrame 0 0 256 [],
    .loadFrame 0 0 0 [⟨256, 1, 0, 0, 0, 0⟩], .loadFrame 0 0 0 (List.replicate 40 ⟨1, 1, 0, 0, 0, 0⟩),
    .submitJob 0 0 256 ⟨1, 1, 1, 1, 0, 0, 0⟩, .submitJob 0 0 0 ⟨65536, 1, 1, 1, 0, 0, 0⟩, .cancelJob 0 0 256 1,
    .cancelJob 0 0 0 65536, .flushQueue 0 0 256, .powerOn 0 0 256, .powerOff 0 0 256, .clearFaultHead 0 0 256,
    .clearFaultStage 0 0 256, .getHead 0 0 256, .getStage 0 0 256, .getFrame 0 0 256] : List Instr).all
      (fun c => !c.wf) = true := by decide
theorem test_wf_store_and_line : ([.readRecipe 0 0 256, .programRecipe 0 0 256 (List.replicate 15 0),
    .programRecipe 0 0 0 (List.replicate 14 0), .programRecipe 0 0 0 (List.replicate 112 0), .eraseBank 0 0 256,
    .setProtect 0 0 256 0, .setProtect 0 0 0 256, .frameReceived 0 0 0 (List.replicate 241 0), .tripReport 0 .s0 true 256,
    .segmentReport 0 .s0 true ⟨1, 1, 91, 1, false⟩, .pyrometerSample 0 .h0 true (.reading 4096)] : List Instr).all
      (fun c => !c.wf) = true := by decide +kernel

/-! ## Tables of the manual -/

/-- The CRC of the digits 1 to 9, the check value of R186's polynomial and initial value. -/
theorem test_crc : crc16 [0x31, 0x32, 0x33, 0x34, 0x35, 0x36, 0x37, 0x38, 0x39] = 0x29B1#16 := by decide +kernel

/-- The table of R51. -/
theorem test_ramp_target : [0, 8, 1500, 2837, 4000].map (rampTarget 640 300 120) = [300, 300, 480, 640, 640] := by decide

/-- The table of R55. -/
theorem test_round_power : [5404, 5405, 5396, -3, -5, -6, -2150].map roundPower = [5400, 5410, 5400, 0, 0, -10, -2150] := by
  decide

/-- The table of R57. -/
theorem test_clamp_power : [clampPower 5400 1000 8000, clampPower 9610 1000 8000, clampPower (-2150) 1000 8000,
    clampPower 5400 1000 700, clampPower 0 1000 0] = [5400, 8000, 1000, 700, 0] := by decide
theorem test_bounds : powerFloor 1005 = 1010 ∧ powerCap 1008 15000 12000 = 1000 := by decide

/-- The table of R142. -/
theorem test_filter : [filterTf 0 (some 500) 503, filterTf 1 (some 500) 503, filterTf 1 (some 500) 499,
    filterTf 2 (some 420) 437, filterTf 2 (some 420) 414, filterTf 2 (some 420) 421, filterTf 3 (some 600) 588,
    filterTf 3 (some 600) 603, filterTf 3 (some 600) 604] = [503, 502, 499, 424, 418, 420, 598, 600, 601] := by decide

/-- The probe orders of R125, floor 3: from the skip tap 5, past the skip tap 6, and with the skip tap at the floor. -/
theorem test_search_order : [searchCandidate 5 3 (some 5), searchCandidate 3 3 (some 5), searchCandidate 4 3 (some 5),
    searchCandidate 5 3 (some 6), searchCandidate 3 3 (some 3), searchCandidate 6 3 none] = [3, 4, 6, 7, 4, 7] := by decide

/-- The example of R127. -/
theorem test_load_shift : [356, 357, 263].map (fun r => loadShifted r 310 15) = [false, true, true] := by decide

/-- The codes of R192: of the settings' choices no others stand for anything. -/
theorem test_choice_codes :
    ((List.range 300).filter fun n => (StalePolicy.ofCode? n).isSome) = [1, 2] ∧
    ((List.range 300).filter fun n => (TuneStart.ofCode? n).isSome) = [1, 2] ∧
    ((List.range 300).filter fun n => (DriftPolicy.ofCode? n).isSome) = [1, 2] ∧
    ((List.range 300).filter fun n => (ClampReport.ofCode? n).isSome) = [1, 2, 3, 4] ∧
    ((List.range 300).filter fun n => (MotionPolicy.ofCode? n).isSome) = [1, 2] ∧
    ((List.range 300).filter fun n => (Fallback.ofCode? n).isSome) = [1, 4] ∧
    ((List.range 300).filter fun n => (StartMode.ofCode? n).isSome) = [1, 2, 3] := by decide +kernel

/-- The trimmed ceiling of section 3.11. -/
theorem test_trim : trimmed 950000 110 = 1045000 := by decide

/-! ## Small states -/

/-- A recipe with the phase of section 3.9. -/
def recipe : Recipe where
  filterDepth := 1
  overtempCeiling := 900
  energyCeiling := 50000
  minEnergy := 20000
  rMin := 200
  rMax := 400
  exitBand := 5
  phases := [.ramp 120 ⟨640, 40, 3000, 1000, 9000, 8000⟩, .soak (.time 1000) ⟨640, 40, 3000, 1000, 9000, 1000⟩]

def job : Job where
  jobTag := 210
  indexTag := 12
  lastOfIndex := true
  recipe := 5
  startMode := .onStart
  armTimeout := 2
  trim := 100

/-- An ARMED joint with its recipe loaded and its start seen. -/
def armed : Joint := { (Joint.ofJob 0 job).load recipe with startSeen := true }

/-- A joint in phase 1, with the energy of section 3.9. -/
def hot : Joint :=
  { armed with armTimer := none, startTime := some 0, phase := some 1, phaseEntry := some 100, energy := 24318,
               remainder := 650, tEntry := some 300, limitTimer := some 8100,
               phaseList := [{ number := 1, duration := none, energy := none }] }

/-- The joint in its last phase. -/
def last : Joint := { hot with phase := some 2, durationTimer := some 1500 }

/-- The device in RUN with every input known and high. -/
def base : State :=
  let high : Input := { pin := .high, taken := some .high, filter := none }
  { State.reset with
    now := 1000,
    cell := { State.reset.cell with mode := .run, estop := high, motion := high, key := high },
    heads := PerHead.make fun h =>
      { HeadRec.reset h .high .high none with line := { clamp := high, flow := high, graceTimer := none } } }

/-- H0 in a head state with a joint, and S0 READY. -/
def headIn (m : HeadMode) (j : Option Joint) : State :=
  (base.modHead .h0 fun r => { r with mode := m, joint := j }).modStage .s0 fun r => { r with mode := .ready }

/-- A segment for H0 is in flight on S0. -/
def flying (s : State) : State :=
  s.modStage .s0 fun r =>
    { r with segment := some { head := .h0, tap := 5, power := 5400, lead := 3, duration := 37, continuation := false,
                               handover := 960, cut := false },
             completionTimer := some 1020 }

/-- The state after a command that answers a next state. -/
def after (c : Instr) (s : State) : State :=
  match exec c s with
  | .next t => t
  | .fault _ => s
  | .refused _ => s

/-- The last reply's kind and payload. -/
def lastReply (s : State) : Option (Byte × List Byte) := s.link.replies.getLast?.map fun r => (r.kind, r.payload)

/-- A frame with a slot of each kind of length. -/
def frame : List Slot := [⟨40, .prefer .h0 .h1⟩, ⟨0, .passive⟩, ⟨60, .split .h1 .h2 20⟩]

/-- S0 READY with its frame's first slot running from 980, and H0 HEATING without a segment in flight. -/
def serving : State :=
  (headIn .heating (some hot)).modStage .s0 fun r =>
    { r with active := some frame,
             running := some { slot := 1, part := .whole, slotStart := 980, partStart := 980, partEnd := 1020,
                               slotTimer := 1020, splitTimer := none } }

/-! ## Commands -/

/-- The report of section 3.9, in every order of the heat law unit and the tuner: E_J 24,517 J and r 710 W·ms. -/
theorem test_segment_report_energy :
    [ReportOrder.tunerCauseFirst, .tunerActsFirst, .heatFirst].map (fun order =>
      (((flying (headIn .heating (some hot))).segmentReported .s0 ⟨5380, 37, 0, 300, false⟩ order true).head .h0).joint.map
        fun j => (j.energy, j.remainder)) = List.replicate 3 (some (24517, 710)) := by decide

/-- The saturation of section 3.11. -/
theorem test_saturation :
    (([592000, 700, 420000].foldl (fun (p : Joint × List (Nat × Nat)) e =>
      (p.1.count e, p.2 ++ [((p.1.count e).energy, (p.1.count e).remainder)]))
      ({ hot with energy := 999412, remainder := 830 }, [])).2) = [(999999, 0), (999999, 700), (999999, 0)] := by decide

/-- The decision of section 3.9: a heat order of 5,400 W for 37 ms with a lead of 3 ms. -/
theorem test_slot_decision :
    let s := (serving.modStage .s0 fun r => { r with matrix := some .h1, gap := 3 }).modHead .h0 fun r =>
      { r with joint := some { hot with phaseEntry := some 0 }, settings := { r.settings with powerLimit := 8000 },
               temp := { r.temp with tf := some 420, lastTaken := some 1494 } }
    let t := State.decideSlot { (s.modStage .s0 fun r => { r with running := r.running.map fun x =>
        { x with slotStart := 1500, partStart := 1500, partEnd := 1540, slotTimer := 1540 } }) with now := 1500 } .s0
    (t.stage .s0).orders.getLast? = some (.heat .h0 2 5400 3 37 false) ∧ (t.stage .s0).completionTimer = some 1560 := by
  decide

/-- The interlock of section 8.10: H1's joint ends, H4's ARMED joint ends under FLUSH, and the queues are empty. -/
theorem test_motion_flush :
    let s := (((headIn .heating (some hot)).modHead .h4 fun r =>
        { r with mode := .armed, joint := some armed, queue := [{ job with jobTag := 220, indexTag := 13 }] }).setInput .motion
          { pin := .low, taken := some .high, filter := some 1002 })
    let t := after .motionAsserted { s with cell := { s.cell with motionPolicy := .flush } }
    t.cell.mode = .interlocked ∧ (t.head .h0).mode = .idle ∧ (t.head .h4).mode = .idle ∧ (t.head .h4).queue = [] ∧
      t.report.results.map ResultRec.outcome = [.abortedMotion, .abortedMotion] ∧
      t.report.events = [.motion .assertedInterlocked] := by decide

/-- The grace timer of section 8.11: COOLANT leaves the head FAULTED and its fault count as it was. -/
theorem test_flow_grace :
    let s := (headIn .heating (some hot)).modHead .h0 fun r => { r with line := { r.line with graceTimer := some 1400 } }
    let t := after (.flowGraceTimerExpiry .h0) s
    (t.head .h0).mode = .faulted ∧ (t.head .h0).faultCount = 0 ∧ t.report.events = [.coolantFault .h0] := by decide

/-- Section 10.7 at 120 ms: a fetch from the bank being erased is not valid at once. -/
theorem test_fetch_from_erased_bank :
    let s := { base with store := { base.store with mode := .erasing, op := some (.erase 2), opTimer := some 1400 } }
    ((after (.submitJob 1120 0x01 1 ⟨1, 7, 37, 1, 0, 0, 0⟩) s).report.results.map ResultRec.outcome) = [.recipeMissing] := by
  decide

/-- Section 10.7 at 150 ms: a fetch from another bank suspends the erase with 250 ms kept. -/
theorem test_fetch_suspends_erase :
    let s := { base with store := { base.store with mode := .erasing, op := some (.erase 2), opTimer := some 1400 },
                         cell := { base.cell with eraseSuspend := true } }
    let t := after (.submitJob 1150 0x01 3 ⟨1, 7, 5, 1, 0, 0, 0⟩) s
    (t.store.mode, t.store.remaining, t.store.suspendTimer, t.store.waiting) =
      (.eraseSuspended, some 250, some 1151, [{ head := .h3, entry := 5 }]) := by decide

/-- Section 10.7 at 426 ms: a failed verify spoils the entry and sets the flag. -/
theorem test_program_fails :
    let s := { base with store := { base.store with mode := .programming, op := some (.program 40 recipe),
                                                    opTimer := some 1426 } }
    let t := after (.programComplete false) s
    t.store.entries[40] = .spoiled ∧ t.store.programError = true ∧ t.store.mode = .ready ∧
      t.report.events = [.storeDone 2 (.program 40) false] := by decide +kernel

/-- Section 11.6: F3's CRC mismatch is counted, and a frame that finds both places held is dropped. -/
theorem test_burst :
    let f : LinkFrame := { kind := 0x08, tag := 0x21, payload := [] }
    let s := { base with link := { base.link with processing := some f, waiting := some { f with tag := 0x22 } } }
    (after (.frameReceived 1001 0x13 0x24 []) s).link.overruns = 1 ∧
      (after (.byteReceived 1001 0x00 true)
        { s with link := { s.link with receiver := .inFrame [0x00, 0x14, 0x23, 0x00], gapTimer := some 1005 } }).link.linkErrors
        = 1 := by decide +kernel

/-- R77 to R79: after pointer H3 the arbiter looks at H4 to H7 and then at H0 to H3. -/
theorem test_rotation_order : rotationOrder (some .h3) = [.h4, .h5, .h6, .h7, .h0, .h1, .h2, .h3] := by decide

/-- R191: F5 of section 11.6 is taken, and its reply is 0x8C with the mode HOLD. -/
theorem test_hold_frame : lastReply (after (.frameReceived 1001 0x0C 0x25 []) base) = some (0x8C, [0x00, 0x02]) := by decide

/-- R190: a kind above 0x1A, and a payload of the wrong length. -/
theorem test_structural_checks :
    lastReply (after (.frameReceived 1001 0x1B 0x01 []) base) = some (0x7F, [0x1B, 0x01]) ∧
      lastReply (after (.frameReceived 1001 0x0C 0x01 [0x00]) base) = some (0x7F, [0x0C, 0x02]) := by decide

/-- R186, R195: the reply of RESET is sent, and the warm reset follows and reads the strap, whatever its level. -/
theorem test_reset_after_reply :
    let s := after (.reset 1001 0x31) base
    let t := after (.replySent 1002) s
    (lastReply s, s.cell.mode, t.cell.mode, t.link.lastReset, t.link.rate) =
      (some (0x83, [0x00]), .run, .hold, .request, Config.strapLevel 0) := by rfl

/-- R194: the part code. -/
theorem test_part_code : (reqIdentify base).2 = .accept false ([0x0B, 0x08, Config.hardwareRevision] ++
    bytesBE 2 Config.firmwareRevision.toNat ++ [0x00, 0x00, 0x00, 0x00, 0x00, 0x00]) := by rfl

/-- R7: a fault limit of 9 is clamped to 8 and the reply marked. -/
theorem test_fault_limit_clamped :
    let t := after (.setHead 1001 0x01 0 [⟨2, 9⟩]) base
    (t.head .h0).settings.faultLimit = 8 ∧ (lastReply t).map (fun r => r.2.take 3) = some [0x01, 0x00, 0x01] := by decide

/-- R118: a head that a frame of its stage names cannot be moved. -/
theorem test_frame_conflict :
    lastReply (after (.setHead 1001 0x01 2 [⟨3, 1⟩]) serving) = some (0x7F, [0x05, 0x0D]) := by decide

/-- R152: a pulse shorter than 2 ms takes nothing; the second change restarts the filter. -/
theorem test_filter_restarts :
    let t := after (.lineInputChange 1001 (.clamp .h0) .high) (after (.lineInputChange 1000 (.clamp .h0) .low) base)
    (t.head .h0).line.clamp = { pin := .high, taken := some .high, filter := some 1003 } ∧
      (after (.clampFallingEdge .h0) t) = t := by decide

/-- The queue idles when it is empty, and no word spells a command. -/
theorem test_idle : step base = .next base ∧ base.withFetchWord 8 0x0C = base := ⟨rfl, rfl⟩

/-! ## Witnesses: the hypotheses of each statement are met -/

theorem witness_StepRunsFrontCommand : ({ base with pending := [.hold 1001 0x01, .gapTimerExpiry] } : State).pending =
    .hold 1001 0x01 :: [.gapTimerExpiry] ∧ base.pending = [] := by decide

/-- A state with a heating joint, a queued job, a held result and an event, whose next command ends the joint. -/
def busy : State :=
  let s := flying ((headIn .heating (some hot)).modHead .h0 fun r => { r with queue := [{ job with jobTag := 211 }] })
  { s with tracker := [{ tag := 12, outstanding := 2, ended := 0, failed := 0, closed := true }],
           report := { results := [resultOf 900 .h3 0 hot .done], events := [.stageReady .s0], eventsLost := 255, attn := true },
           pending := [.segmentReport 1003 .s0 true ⟨5380, 37, 0, 300, true⟩] }

theorem busy_steps : ∃ t, step busy = .next t := ⟨_, rfl⟩
theorem witness_ResultPlacesKept : busy.PlacesOk := by unfold State.PlacesOk; decide
theorem witness_EventQueueAndAttnKept : busy.EventsOk := by unfold State.EventsOk; decide
theorem witness_JointMatchesHeadState : busy.JointsOk := by
  intro h; refine ⟨?_, ?_⟩
  · cases h <;> decide
  · cases h <;> intro m <;> revert m <;> decide
theorem witness_QueuesAndTagsKept : busy.QueuesOk := by intro h; cases h <;> decide
theorem witness_EnergyAndTfStayInRange : busy.EnergyOk ∧ busy.TempOk := by
  refine ⟨?_, ?_⟩
  · intro h j e
    cases h
    case h0 => cases Option.some.inj (show some hot = some j from e); decide
    all_goals exact absurd e (by decide +revert)
  · intro h t e; cases h <;> exact absurd e (by decide +revert)
theorem witness_SegmentOnlyOnReadyStage : busy.SegmentsOk ∧ busy.FlightOk := by
  refine ⟨?_, ?_⟩
  · intro g; cases g <;> decide
  · intro g
    cases g <;> refine ⟨?_, ?_, ?_⟩
    case s0.refine_3 => intro x e; cases Option.some.inj e; decide
    all_goals intro x e; exact absurd e (by decide +revert)
theorem witness_CausesMatchDeviceMode : busy.CausesOk := by unfold State.CausesOk; decide
theorem witness_BufferAndCountsKept : busy.LinkOk ∧ busy.CountsOk := by
  refine ⟨by unfold State.LinkOk; decide, ?_⟩; intro h; cases h <;> decide

/-! The busy state in HOLD and INTERLOCKED. -/

def held : State := { busy with cell := { busy.cell with mode := .hold } }
def locked : State := { busy with cell := { busy.cell with mode := .interlocked, causeMotion := true } }

theorem witness_NoHeatOrderOutsideRun : held.cell.mode ≠ .run ∧ locked.cell.mode ≠ .run ∧ (∃ t, step held = .next t) ∧
    ∃ t, step locked = .next t := ⟨by decide, by decide, ⟨_, rfl⟩, ⟨_, rfl⟩⟩

theorem witness_RequestsAnsweredOnce : requestOf (.identify 1 0x02) = some (1, 0x02, 0x01) ∧
    requestOf (.setProtect 1 0x02 0 2) = some (1, 0x02, 0x1A) ∧ base.inReset = false := by decide

theorem witness_HeldInResetOnlyClockMoves : ({ base with inReset := true } : State).inReset = true ∧
    (∀ t i l, Instr.lostTimerExpiry .h0 ≠ .lineInputChange t i l) ∧
    (∀ t r, Instr.lostTimerExpiry .h0 ≠ .powerOnReset t r) ∧ (∀ t, Instr.lostTimerExpiry .h0 ≠ .resetLineReleased t) ∧
    (∀ b, Instr.lostTimerExpiry .h0 ≠ .programComplete b) ∧ (∀ b, Instr.lostTimerExpiry .h0 ≠ .eraseComplete b) ∧
    Instr.lostTimerExpiry .h0 ≠ .suspendTimerExpiry := by
  refine ⟨rfl, ?_, ?_, ?_, ?_, ?_, ?_⟩ <;> simp

/-- Every timer of this state is stopped; a joint is active and a frame runs in no stage. -/
def still : State := headIn .heating (some { hot with limitTimer := none })

theorem witness_StoppedTimersDoNothing :
    [(still.stage .s0).settleTimer, (still.stage .s0).completionTimer, (still.head .h0).temp.lostTimer,
      (still.head .h0).line.graceTimer, still.link.gapTimer, still.store.opTimer, still.store.suspendTimer] =
      List.replicate 7 none ∧ (still.stage .s0).running = none ∧
    ([LineInput.estop, .motion, .key, .clamp .h0, .flow .h7].all fun i => (still.input i).filter = none) = true ∧
    (∀ run, (serving.stage .s0).running = some run → run.splitTimer = none) ∧
    ∀ j, (still.head .h0).joint = some j → j.armTimer = none ∧ j.durationTimer = none ∧ j.limitTimer = none := by
  refine ⟨by decide, by decide, by decide, ?_, ?_⟩
  · intro run e; cases Option.some.inj e; rfl
  · intro j e; cases Option.some.inj e; decide

theorem witness_RecipeRecordRoundTrip : recipe.valid = true ∧ recipe.rMax ≤ 65535 ∧
    ({ recipe with rMax := 65535, phases := [.soak (.energy 999999) ⟨640, 200, 15000, 0, 15000, 30000⟩] } : Recipe).valid =
      true ∧
    ({ recipe with phases := List.replicate 6 (.ramp 500 ⟨150, 0, 0, 0, 0, 100⟩) } : Recipe).valid = true ∧
    parseRecipe [1, 0, 0, 200, 0, 0, 0, 0, 0, 0, 0, 0, 0, 0, 0, 3, 0, 1] =
      some ⟨0, 200, 0, 0, 0, 0, 0, [.dwell 1]⟩ ∧
    parseRecipe [1, 0, 0, 200, 0, 0, 0, 0, 0, 0, 0, 0, 0, 0, 0, 4, 0, 1] = none ∧
    parseRecipe [2, 0, 0, 200, 0, 0, 0, 0, 0, 0, 0, 0, 0, 0, 0, 3, 0, 1] = none := by decide

/-- The ends of the ranges of R29 and R30 pass. -/
theorem test_recipe_range_ends :
    let f : HeatFields := ⟨640, 40, 3000, 1000, 9000, 8000⟩
    let with_ (p : Phase) : Recipe := { recipe with phases := [.ramp 1 f, p] }
    ([{ recipe with filterDepth := 3 }, { recipe with overtempCeiling := 200, phases := [.ramp 1 { f with tEnd := 199 }] },
      { recipe with overtempCeiling := 1100 }, { recipe with energyCeiling := 999999, minEnergy := 999999 },
      { recipe with energyCeiling := 0, minEnergy := 999999 }, { recipe with rMin := 400 }, { recipe with exitBand := 20 },
      with_ (.ramp 500 { f with tEnd := 899 }), with_ (.ramp 1 { f with pMin := 15000, pMax := 15000 }),
      with_ (.ramp 1 { f with timeLimit := 100 }), with_ (.soak (.time 1) f), with_ (.soak (.time 8000) f),
      with_ (.soak (.time 30000) { f with timeLimit := 30000 }), with_ (.soak (.energy 1) f), with_ (.dwell 1),
      with_ (.dwell 30000)] : List Recipe).all Recipe.valid = true := by decide

/-- One past each end of the ranges, and each broken relation of R29 and R30, fails. -/
theorem test_recipe_range_passed :
    let f : HeatFields := ⟨640, 40, 3000, 1000, 9000, 8000⟩
    let with_ (p : Phase) : Recipe := { recipe with phases := [.ramp 1 f, p] }
    ([{ recipe with phases := [] }, { recipe with phases := List.replicate 7 (.ramp 1 f) }, { recipe with filterDepth := 4 },
      { recipe with overtempCeiling := 199, phases := [.ramp 1 { f with tEnd := 198 }] },
      { recipe with overtempCeiling := 1101 }, { recipe with energyCeiling := 1000000 },
      { recipe with energyCeiling := 0, minEnergy := 1000000 }, { recipe with minEnergy := 50001 },
      { recipe with rMin := 401 }, { recipe with exitBand := 21 }, { recipe with phases := [.dwell 1] },
      with_ (.ramp 1 { f with tEnd := 149 }), with_ (.ramp 1 { f with tEnd := 900 }), with_ (.ramp 1 { f with kp := 201 }),
      with_ (.ramp 1 { f with pBase := 15001 }), with_ (.ramp 1 { f with pMax := 15001 }),
      with_ (.ramp 1 { f with pMin := 9001 }), with_ (.ramp 1 { f with timeLimit := 99 }),
      with_ (.ramp 1 { f with timeLimit := 30001 }), with_ (.ramp 0 f), with_ (.ramp 501 f), with_ (.soak (.time 0) f),
      with_ (.soak (.time 8001) f), with_ (.soak (.time 30001) { f with timeLimit := 30001 }), with_ (.soak (.energy 0) f),
      with_ (.soak (.energy 1000000) f), with_ (.dwell 0), with_ (.dwell 30001)] : List Recipe).all
        (fun r => !r.valid) = true := by decide

theorem witness_FrameBytesMakeFrame : base.inReset = false ∧ base.link.receiver = .hunting ∧
    ([] : List Byte).length ≤ 240 ∧ (List.replicate 240 (0x00 : Byte)).length ≤ 240 ∧
    [(0x00 : Byte), 0x00] ≠ bytesBE 2 (crc16 (frameBody 0x0C 0x25 [])).toNat := by decide +kernel

/-- A frame is in processing, and one may wait behind it. -/
def taking (waiting : Option LinkFrame) (replies : List Reply) : State :=
  { base with link := { base.link with
      processing := some { kind := 0x0C, tag := 0x21, payload := [] }, waiting := waiting, replies := replies } }

def waits : LinkFrame := { kind := 0x0D, tag := 0x22, payload := [] }

theorem witness_FrameBuffering : base.inReset = false ∧ base.link.processing = none ∧ Kind.ofCode? 0 = none ∧
    Kind.ofCode? 27 = none ∧ Kind.ofCode? 1 = some .identify ∧ parsePayload .identify [] = some .identify ∧
    parsePayload .setProtect [0x00] = none ∧ Kind.ofCode? 26 = some .setProtect ∧
    (taking none []).link.waiting = none ∧ (taking none []).link.processing.isSome ∧
    (taking (some waits) []).link.waiting = some waits := by decide

def inFrame (bytes : List Byte) : State :=
  { base with link := { base.link with receiver := .inFrame bytes, gapTimer := some 1005 } }

theorem witness_ReceiverTakesBytes : base.inReset = false ∧ base.link.receiver = .hunting ∧ (0xC2 : Byte) ≠ 0xC3 ∧
    (inFrame [0x00]).link.receiver = .inFrame [0x00] ∧ (inFrame []).link.receiver = .inFrame [] ∧
    240 < (0xF1 : Byte).toNat ∧ (0xF0 : Byte).toNat ≤ 240 ∧ (inFrame []).link.gapTimer = some 1005 := by decide

def replyOf (frame resets : Bool) : Reply :=
  { kind := 0x8C, tag := 0x21, payload := [0x00, 0x02], answersFrame := frame, resets := resets }

theorem witness_ReplySentAdvancesBuffer : base.inReset = false ∧ base.link.replies = [] ∧
    (taking none [replyOf false true]).link.replies = [replyOf false true] ∧ (replyOf false true).resets = true ∧
    (taking none [replyOf false false]).link.replies = [replyOf false false] ∧ (replyOf false false).answersFrame = false ∧
    (taking none [replyOf true false]).link.waiting = none ∧ (replyOf true false).answersFrame = true ∧
    (taking (some waits) [replyOf true false]).link.waiting = some waits := by decide

theorem witness_WarmResetLeaves : base.inReset = false ∧ ({ base with inReset := true } : State).inReset = true := by decide

/-- The store of `base` with an entry of each state, and an erase of bank 3 where it is asked for. -/
def stored (erasing : Bool) : State :=
  { base with store := { base.store with
      mode := if erasing then .erasing else .ready, op := if erasing then some (.erase 3) else none,
      workingEnable := true,
      entries := (base.store.entries.set 62 .spoiled).set 63 (.valid recipe) } }

theorem witness_ReadingChangesNothing : base.inReset = false ∧ Stage.ofNum? 0 = some .s0 ∧ Stage.ofNum? 1 = some .s1 ∧
    1 < 2 ∧ 63 < 64 ∧ (stored true).store.op = some (.erase 3) ∧ (3 : Fin 4).val = (63 : Fin 64).val / 16 ∧
    (3 : Fin 4).val = (48 : Fin 64).val / 16 ∧ (stored false).store.mode = .ready ∧ (stored false).store.op = none ∧
    (stored false).store.entries[0] = .blank ∧ (stored false).store.entries[62] = .spoiled ∧
    (stored false).store.entries[63] = .valid recipe ∧ (stored true).store.mode ≠ .ready ∧
    (3 : Fin 4).val ≠ (47 : Fin 64).val / 16 := by decide +kernel

theorem witness_GetHeadReadsAndResetsFlags : base.inReset = false ∧ Head.ofNum? 0 = some .h0 ∧ Head.ofNum? 7 = some .h7 ∧
    7 < 8 := by decide

/-- Both stages in the given state. -/
def stagesIn (m : StageMode) : State := (base.modStage .s0 fun r => { r with mode := m }).modStage .s1 fun r => { r with mode := m }

theorem witness_SetCellAndStageTakeSettings : base.inReset = false ∧
    (∀ i ∈ [(⟨2, 1⟩ : Item), ⟨1, 2⟩], (i.code = 1 ∧ (i.value = 1 ∨ i.value = 2)) ∨ (i.code = 2 ∧ (i.value = 0 ∨ i.value = 1))) ∧
    ([(⟨2, 1⟩ : Item), ⟨1, 2⟩].map Item.code).Nodup ∧
    (∃ i ∈ [(⟨1, 3⟩ : Item)], ¬ ((i.code = 1 ∧ (i.value = 1 ∨ i.value = 2)) ∨ (i.code = 2 ∧ (i.value = 0 ∨ i.value = 1)))) ∧
    ¬ ([(⟨2, 0⟩ : Item), ⟨2, 1⟩].map Item.code).Nodup ∧ Stage.ofNum? 1 = some .s1 ∧
    (∀ i ∈ [(⟨3, 99⟩ : Item), ⟨2, 15⟩], i.code = 1 ∨ i.code = 2 ∨ i.code = 3) ∧
    ([(⟨3, 99⟩ : Item), ⟨2, 15⟩].map Item.code).Nodup ∧
    ¬ (∀ i ∈ [(⟨4, 0⟩ : Item)], i.code = 1 ∨ i.code = 2 ∨ i.code = 3) ∧
    ((stagesIn .off).stage .s1).mode = .off ∧ ((stagesIn .fault).stage .s1).mode = .fault ∧
    ((stagesIn .settling).stage .s1).mode = .settling ∧ ((stagesIn .ready).stage .s1).mode = .ready ∧ 1 < 2 := by decide

/-- R117, R191: an absent setting stays, and a clamped one marks the reply. -/
theorem test_absent_stage_setting :
    let t := after (.setStage 1001 0x01 1 [⟨3, 99⟩, ⟨2, 15⟩]) base
    ((t.stage .s1).powerLimit, (t.stage .s1).gap, (t.stage .s1).settleTime, lastReply t) =
      (12000, 15, 100, some (0x86, [0x01, 0x2E, 0xE0, 0x00, 0x0F, 0x00, 0x64])) := by decide

/-- H0 in a state without a joint. -/
def headAt (m : HeadMode) : State := base.modHead .h0 fun r => { r with mode := m }

theorem witness_SetHeadLimitAndEnable : base.inReset = false ∧ Head.ofNum? 0 = some .h0 ∧
    (base.head .h0).settings.floor ≤ (base.head .h0).settings.ceiling ∧
    ((headIn .stopping (some hot)).head .h0).mode ∈ [HeadMode.armed, .tuning, .heating, .stopping] ∧
    ((headAt .idle).head .h0).mode = .idle ∧ ((headAt .faulted).head .h0).mode = .faulted ∧
    ((headAt .disabled).head .h0).mode = .disabled ∧ ¬ ([(⟨1, 0⟩ : Item), ⟨1, 1⟩].map Item.code).Nodup ∧ 1 < 2 ∧
    Stage.ofNum? 2 = none ∧ Stage.ofNum? 1 = some .s1 ∧ [StalePolicy.holdLast, .stepDown][3 - 1]? = none ∧
    [StalePolicy.holdLast, .stepDown][2 - 1]? = some .stepDown ∧ [ClampReport.none, .rise, .fall, .both][5 - 1]? = none ∧
    ¬ 16 ≤ 15 ∧ 3 ∉ [2, 4, 8, 16] ∧ 16 ∈ [2, 4, 8, 16] ∧ ¬ 2 ≤ 1 ∧ (base.head .h0).settings.ceiling < 14 ∧ (base.head .h0).settings.floor ≤ 2 ∧
    ((headIn .stopping (some hot)).head .h0).settings.settleStep ≠ 8 ∧ 0x08 ∉ [0x02, 0x04, 0x05, 0x10, 0x11, 0x12, 0x13] ∧
    (serving.head .h1).mode ∉ [HeadMode.armed, .tuning, .heating, .stopping] ∧ (serving.stage .s0).active = some frame ∧
    (∃ z ∈ frame, Head.h1 ∈ z.rule.heads) ∧ ¬ (∃ z ∈ frame, Head.h3 ∈ z.rule.heads) ∧
    (serving.stage .s0).pendingFrame = none := by decide

def rawSlots : List RawSlot := [⟨40, 3, 0, 1, 0, 0⟩, ⟨0, 1, 0, 0, 0, 0⟩, ⟨60, 6, 1, 2, 0, 20⟩]

theorem witness_LoadFrameAdoptedOrPending : base.inReset = false ∧ 1 < 2 ∧ Stage.ofNum? 0 = some .s0 ∧
    8 < (List.replicate 9 (⟨1, 1, 0, 0, 0, 0⟩ : RawSlot)).length ∧ (∀ x ∈ [(⟨0, 1, 0, 0, 0, 0⟩ : RawSlot)], x.length = 0) ∧
    (∃ x ∈ [(⟨251, 1, 0, 0, 0, 0⟩ : RawSlot)], 250 < x.length) ∧ base.frameOf .s0 rawSlots = some frame ∧
    (serving.stage .s0).mode = .ready ∧ (serving.stage .s0).active.isSome ∧ serving.frameOf .s0 rawSlots = some frame ∧
    ((stagesIn .ready).stage .s0).active = none ∧ (stagesIn .ready).frameOf .s0 rawSlots = some frame ∧
    (base.stage .s0).mode ≠ .ready ∧
    ([⟨251, 1, 0, 0, 0, 0⟩, ⟨40, 0, 0, 0, 0, 0⟩, ⟨40, 7, 0, 0, 0, 0⟩, ⟨40, 2, 8, 0, 1, 0⟩, ⟨40, 5, 4, 0, 1, 0⟩,
      ⟨40, 3, 0, 4, 0, 0⟩, ⟨40, 6, 0, 8, 0, 20⟩, ⟨40, 2, 0, 0, 2, 0⟩, ⟨40, 5, 0, 0, 0, 0⟩, ⟨40, 6, 1, 1, 0, 20⟩,
      ⟨40, 6, 1, 2, 0, 0⟩, ⟨40, 6, 1, 2, 0, 40⟩] : List RawSlot).all (fun x => (base.slotOf .s0 x).isNone) = true ∧
    ([⟨250, 1, 255, 255, 255, 255⟩, ⟨40, 2, 3, 255, 4, 255⟩, ⟨40, 3, 3, 3, 255, 255⟩, ⟨40, 4, 255, 255, 255, 255⟩,
      ⟨40, 5, 0, 255, 1, 255⟩, ⟨40, 6, 1, 2, 255, 1⟩, ⟨40, 6, 1, 2, 255, 39⟩, ⟨0, 6, 1, 2, 255, 255⟩] :
      List RawSlot).all (fun x => (base.slotOf .s0 x).isSome) = true := by decide

/-- The first live slots of two frames. -/
theorem frame_first : firstLive frame 1 ⟨40, .prefer .h0 .h1⟩ ∧ firstLive [⟨0, .passive⟩, ⟨30, .rotate⟩] 2 ⟨30, .rotate⟩ :=
  ⟨⟨by decide, rfl, by decide, fun k _ below _ => by omega⟩,
    ⟨by decide, rfl, by decide, fun k y below at_ => by
      cases (by omega : k = 0)
      cases at_; rfl⟩⟩

def rawJob : RawJob := ⟨1, 12, 63, 3, 1, 600, 0⟩

/-- H0 with a queue of the given tags, and an open index 12. -/
def queued (tags : List Nat) (closed : Bool) (open_ : List Nat) : State :=
  { base.modHead .h0 (fun r => { r with mode := .faulted, queue := tags.map fun n => { job with jobTag := n } }) with
      tracker := open_.map fun n => { tag := n, outstanding := tags.length, ended := 0, failed := 0, closed := closed } }

theorem witness_SubmitJobChecksAndQueues : base.inReset = false ∧ 7 < 8 ∧ Head.ofNum? 0 = some .h0 ∧ rawJob.jobTag ≠ 0 ∧
    rawJob.recipe ≤ 63 ∧ StartMode.ofCode? rawJob.startMode = some .onClamp ∧ rawJob.lastOfIndex ∈ [0, 1] ∧
    rawJob.armTimeout ≤ 600 ∧ 63 < 64 ∧ 4 ∉ [1, 2, 3] ∧ 2 ∉ [0, 1] ∧ 600 < 601 ∧
    ((headAt .disabled).head .h0).mode = .disabled ∧ rawJob.jobTag ∈ ((queued [1] false [12]).head .h0).tags ∧
    rawJob.jobTag ∉ ((queued [2, 3, 4, 5] false [12]).head .h0).tags ∧
    4 ≤ ((queued [2, 3, 4, 5] false [12]).head .h0).queue.length ∧
    ((queued [2, 3, 4] true [12]).head .h0).queue.length < 4 ∧
    ((queued [2, 3, 4] true [12]).tracker.find? fun e => e.tag = rawJob.indexTag).map IndexEntry.closed = some true ∧
    ((queued [] false [1, 2, 3, 4]).tracker.find? fun e => e.tag = rawJob.indexTag) = none ∧
    4 ≤ (queued [] false [1, 2, 3, 4]).tracker.length ∧ (queued [] false [1, 2, 3]).tracker.length < 4 ∧
    ((queued [2, 3, 4] false [12]).tracker.find? fun e => e.tag = rawJob.indexTag).map IndexEntry.closed = some false := by
  decide

theorem witness_CancelJobFindsQueuedThenActive : base.inReset = false ∧ 7 < 8 ∧ Head.ofNum? 7 = some .h7 ∧
    ((queued [2, 3] false [12]).head .h0).queue = [{ job with jobTag := 2 }] ++ { job with jobTag := 3 } :: [] ∧
    (∀ j ∈ [{ job with jobTag := 2 }], j.jobTag ≠ 3) ∧ (∀ j ∈ ((queued [2, 3] false [12]).head .h0).queue, j.jobTag ≠ 1) ∧
    (∀ j, ((queued [2] false [12]).head .h0).joint = some j → j.job.jobTag ≠ 1) ∧
    ((headIn .heating (some hot)).head .h0).joint = some hot ∧ hot.job.jobTag = 210 ∧
    ((queued [2] true [12]).tracker.map fun e => (e.tag, e.outstanding, e.closed)) = [(12, 1, true)] ∧
    ((queued [2] false [12]).tracker.map fun e => (e.tag, e.outstanding, e.closed)) = [(12, 1, false)] ∧
    ∀ j ∈ ((headIn .heating (some hot)).head .h0).queue, j.jobTag ≠ 210 := by
  refine ⟨by decide, by decide, by decide, by decide, by decide, by decide, ?_, by decide, by decide, by decide, by decide, by decide⟩
  intro j e; exact absurd e (by decide +revert)

/-- R23: the last outstanding job of a closed index leaves and completes it; an open index stays at outstanding 0. -/
theorem test_index_completes :
    let closed := after (.cancelJob 1001 0x01 0 2) (queued [2] true [12])
    let open_ := after (.cancelJob 1001 0x01 0 2) (queued [2] false [12])
    closed.tracker = [] ∧ closed.report.events = [.indexDone 12 0 0] ∧ open_.report.events = [] ∧
      open_.tracker = [{ tag := 12, outstanding := 0, ended := 0, failed := 0, closed := false }] := by decide

/-- R22: a last-of-index job closes the index it joins, and a job of a new index opens one behind it. -/
theorem test_submit_takes_index :
    ((after (.submitJob 1001 0x01 0 ⟨9, 12, 5, 1, 1, 0, 0⟩) (queued [2] false [12])).tracker.map fun e =>
      (e.tag, e.outstanding, e.closed)) = [(12, 2, true)] ∧
    ((after (.submitJob 1001 0x01 0 ⟨9, 13, 5, 1, 0, 0, 0⟩) (queued [2] false [12])).tracker.map fun e =>
      (e.tag, e.outstanding, e.closed)) = [(12, 1, false), (13, 1, false)] := by decide

theorem witness_FlushQueueEmptiesInOrder : base.inReset = false ∧ 7 < 8 ∧ Head.ofNum? 0 = some .h0 ∧
    Head.ofNum? 7 = some .h7 ∧ ((queued [2, 3, 4, 5] false [12]).head .h0).queue.length = 4 ∧
    ((queued [2] true [12]).tracker.map fun e => (e.tag, e.outstanding, e.closed)) = [(12, 1, true)] ∧
    ((headAt .disabled).head .h0).mode = .disabled ∧ (headAt .disabled).QueuesOk ∧ (queued [2, 3, 4, 5] false [12]).QueuesOk := by
  refine ⟨by decide, by decide, by decide, by decide, by decide, by decide, by decide, ?_, ?_⟩ <;> (intro h; cases h <;> decide)

theorem witness_StartHeadsSeesStart : base.inReset = false ∧
    State.startable ((headIn .armed (some { armed with startSeen := false }))) .h0 = true ∧ base.startable .h0 = false := by
  decide

theorem witness_StartCheckStartsJoint :
    ((headIn .armed (some armed)).head .h0).joint = some armed ∧ armed.recipe.isSome ∧ armed.startSeen = true ∧
    (headIn .armed (some armed)).canStart .h0 = true ∧
    ∀ j, (base.head .h0).joint = some j → j.startSeen = false := by
  refine ⟨by decide, by decide, by decide, by decide, ?_⟩
  intro j e; exact absurd e (by decide +revert)

theorem witness_ClearFaultHeadClears : base.inReset = false ∧ 7 < 8 ∧ Head.ofNum? 0 = some .h0 ∧
    ((headAt .disabled).head .h0).mode = .disabled ∧ ((headAt .faulted).head .h0).mode = .faulted ∧
    ((headIn .stopping (some hot)).head .h0).mode ≠ .disabled := by decide

theorem witness_JointEndSteps : ((headIn .stopping (some hot)).head .h0).joint = some hot ∧
    hot.phaseList = [] ++ [{ number := 1, duration := none, energy := none }] ∧ armed.phaseList = [] ∧
    (busy.tracker.find? fun e => e.tag = hot.job.indexTag).map IndexEntry.closed = some true := by decide

theorem witness_EndCauseByTable :
    ((headIn .armed (some armed)).head .h0).mode ∉ [HeadMode.tuning, .heating, .stopping] ∧
    ((headIn .heating (some hot)).head .h0).mode ∈ [HeadMode.heating] ∧ (headIn .heating (some hot)).inFlight .h0 = false ∧
    ((flying (headIn .heating (some hot))).stage .s0).segment.map Segment.head = some .h0 ∧
    ((headIn .stopping (some { hot with cause := some .cancelled })).head .h0).joint.map Joint.cause =
      some (some .cancelled) := by decide

/-- Three IDLE heads with a queued job, two free result places, and a program in flight. -/
def crowded : State :=
  { base with
      heads := PerHead.make fun h =>
        { base.head h with queue := if h = .h1 ∨ h = .h4 ∨ h = .h6 then [job] else [] },
      report := { base.report with results := List.replicate 30 (resultOf 900 .h3 0 hot .done), attn := true },
      store := { base.store with mode := .programming } }

theorem witness_RetryLeavesNoneToActivate :
    ((queued [2] false [12]).head .h0).queue = { job with jobTag := 2 } :: [] ∧ crowded.store.mode = .programming ∧
    (crowded.head .h6).mode = .idle ∧ (crowded.head .h6).queue ≠ [] ∧ crowded.JointsOk := by
  refine ⟨by decide, by decide, by decide, by decide, ?_⟩
  intro h; refine ⟨?_, ?_⟩
  · cases h <;> decide
  · cases h <;> intro m <;> revert m <;> decide

/-- The example of R9: two places are freed, and the two lowest of three IDLE heads with a queued job are activated. -/
theorem test_two_lowest_activated :
    [Head.h1, .h4, .h6].map (fun h => (crowded.retry.head h).mode) = [.armed, .armed, .idle] := by decide +kernel

theorem witness_FetchesRemoveOldest : base.inReset = false ∧ base.report.results = [] ∧ busy.report.results ≠ [] ∧
    (List.replicate 15 (Event.stageReady .s0)).length < 16 ∧ ¬ (List.replicate 16 (Event.stageReady .s0)).length < 16 := by
  decide

/-- The event layouts of section 11.4, and a result without peak, lock and phases. -/
theorem test_record_bytes :
    eventBytes (.indexDone 300 7 1) = [0x01, 0x01, 0x2C, 0x00, 0x07, 0x00, 0x01] ∧
    eventBytes (.storeDone 2 (.program 40) false) = [0x0F, 0x00, 0x02, 0x01, 0x28, 0x00, 0x01] ∧
    resultBytes ⟨210, 12, .h3, 5, .recipeMissing, 0, none, 0, 0, none, []⟩ =
      [0x00, 0xD2, 0x00, 0x0C, 0x03, 0x05, 0x05] ++ List.replicate 15 0x00 := by decide

theorem witness_PowerAndClearStage : base.inReset = false ∧ Stage.ofNum? 1 = some .s1 ∧ (base.stage .s1).mode = .off ∧
    base.cell.estop.taken = some .high ∧ State.reset.cell.estop.taken ≠ some .high ∧
    ((stagesIn .settling).stage .s1).mode = .settling ∧ ((stagesIn .ready).stage .s1).mode = .ready ∧
    ((stagesIn .fault).stage .s1).mode = .fault ∧ ((stagesIn .ready).stage .s1).pendingFrame = none ∧
    (((stagesIn .ready).modStage .s1 fun r => { r with pendingFrame := some frame }).stage .s1).pendingFrame = some frame ∧
    ((headIn .heating (some hot)).head .h0).settings.stage = .s0 ∧
    ∀ h, ((stagesIn .ready).head h).settings.stage = .s1 →
      ((stagesIn .ready).head h).mode ∉ [HeadMode.tuning, .heating, .stopping] := by
  refine ⟨by decide, by decide, by decide, by decide, by decide, by decide, by decide, by decide, by decide, by decide,
    by decide, ?_⟩
  intro h; cases h <;> decide

/-- The last slot of the frame runs on S0 with its decision deferred, and a frame is pending. -/
def late : State :=
  serving.modStage .s0 fun r =>
    { r with deferred := true, pendingFrame := some [⟨0, .passive⟩, ⟨30, .rotate⟩],
             running := some (runningOf 3 ⟨60, .split .h1 .h2 20⟩ 1020) }

theorem witness_ReportsThatFaultStage : base.inReset = false ∧ (base.stage .s0).mode = .off ∧
    ((stagesIn .fault).stage .s0).mode = .fault ∧ ((stagesIn .settling).stage .s0).mode = .settling ∧
    ((stagesIn .ready).stage .s0).mode = .ready ∧ busy.JointsOk ∧
    (serving.stage .s0).pendingFrame = none ∧ (late.stage .s0).mode = .ready ∧ (late.stage .s0).pendingFrame.isSome := by
  refine ⟨by decide, by decide, by decide, by decide, by decide, witness_JointMatchesHeadState, by decide,
    by decide, by decide⟩

/-- R106, R16: a trip ends a HEATING and a STOPPING joint of the stage, and then raises its event. -/
theorem test_fault_ends_members :
    let s := late.modHead .h2 fun r => { r with mode := .stopping, joint := some { hot with cause := some .clampLost } }
    let t := after (.tripReport 1001 .s0 true 7) s
    t.report.results.map (fun x => (x.head, x.outcome)) = [(.h0, .stageFault), (.h2, .clampLost)] ∧
      t.report.events = [.frameAdopted .s0, .stageFault .s0 .trip] ∧ (t.stage .s0).deferred = false ∧
      (t.stage .s0).active = some [⟨0, .passive⟩, ⟨30, .rotate⟩] := by decide

/-- S0 SETTLING with its settle timer running, with the last bus report given. -/
def settling (ready : Bool) : State :=
  base.modStage .s0 fun r => { r with mode := .settling, busReady := ready, settleTimer := some 1800 }

theorem witness_SettleAndCompletionExpiry : base.inReset = false ∧ ((settling true).stage .s0).settleTimer = some 1800 ∧
    ((settling true).stage .s0).busReady = true ∧ ((settling false).stage .s0).busReady = false ∧
    ((settling true).stage .s0).active = none ∧
    (((settling true).modStage .s0 fun r => { r with active := some frame }).stage .s0).active = some frame ∧
    firstLive frame 1 ⟨40, .prefer .h0 .h1⟩ ∧ ((settling true).stage .s0).segment = none ∧
    ((flying (settling true)).stage .s0).segment.isSome ∧
    ((flying (headIn .heating (some hot))).stage .s0).completionTimer = some 1020 :=
  ⟨by decide, by decide, by decide, by decide, by decide, by decide, frame_first.1, by decide, by decide, by decide⟩

theorem witness_HoldResumeAndClearByMode : base.inReset = false ∧ base.cell.mode = .run ∧ State.reset.cell.mode = .hold ∧
    locked.cell.mode = .interlocked ∧ held.cell.mode = .hold ∧ held.cell.estop.taken ≠ none ∧
    State.reset.cell.estop.taken = none ∧ locked.cell.estop.taken = some .high ∧ locked.cell.motion.taken = some .high ∧
    ¬ (State.reset.cell.estop.taken = some .high ∧ State.reset.cell.motion.taken = some .high) := by decide

/-- An input whose filter runs out at 1002. -/
def turning (pin : Level) (taken : Option Level) : Input := { pin := pin, taken := taken, filter := some 1002 }

theorem witness_InputChangeRestartsFilter : base.inReset = false ∧ (base.input (.clamp .h7)).pin ≠ .low ∧
    ((base.setInput .key (turning .low none)).input .key).taken = none ∧
    ((base.setInput .estop (turning .low none)).input .estop).pin = .low ∧
    ((base.setInput .estop (turning .high none)).input .estop).pin = .high ∧
    (base.setInput .key (turning .low (some .high))).cell.key.taken = some .high ∧
    (base.setInput .key (turning .low (some .high))).cell.key.filter = some 1002 := by decide

theorem witness_EstopTakenInterlocks : (busy.setInput .estop (turning .low (some .high))).inReset = false ∧
    (busy.setInput .estop (turning .low (some .high))).cell.estop = turning .low (some .high) ∧
    (busy.setInput .estop (turning .high (some .low))).cell.estop = turning .high (some .low) ∧
    (busy.stage .s0).mode = .ready ∧ (busy.stage .s1).mode = .off ∧ busy.JointsOk := by
  refine ⟨by decide, by decide, by decide, by decide, by decide, witness_JointMatchesHeadState⟩

theorem witness_MotionTakenByStartedHeads : (busy.setInput .motion (turning .low (some .high))).inReset = false ∧
    (busy.setInput .motion (turning .low (some .high))).cell.motion = turning .low (some .high) ∧
    (busy.setInput .motion (turning .high (some .low))).cell.motion = turning .high (some .low) ∧
    (busy.head .h0).mode ∈ [HeadMode.tuning, .heating, .stopping] ∧
    ∀ h, (base.head h).mode ∉ [HeadMode.tuning, .heating, .stopping] := by
  refine ⟨by decide, by decide, by decide, by decide, ?_⟩
  intro h; cases h <;> decide

theorem witness_ClampEdgesAct :
    ((busy.setInput (.clamp .h0) (turning .low (some .high))).head .h0).line.clamp = turning .low (some .high) ∧
    ((busy.setInput (.clamp .h0) (turning .high (some .low))).head .h0).line.clamp = turning .high (some .low) ∧
    busy.inReset = false := by decide

theorem witness_FlowEdgesAndGrace :
    ((busy.setInput (.flow .h0) (turning .low (some .high))).head .h0).line.flow = turning .low (some .high) ∧
    ((busy.setInput (.flow .h0) (turning .high (some .low))).head .h0).line.flow = turning .high (some .low) ∧
    (busy.head .h0).mode = .heating ∧ (base.head .h0).mode ≠ .tuning ∧ (base.head .h0).mode ≠ .heating ∧
    ((busy.setGrace .h0 (some 1400)).head .h0).line.graceTimer = some 1400 ∧
    ((headIn .stopping (some hot)).head .h0).mode = .stopping := by decide

theorem witness_JointTimersRaiseCauses : base.inReset = false ∧
    ((headIn .armed (some armed)).head .h0).joint = some armed ∧ armed.armTimer = some 2000 ∧
    ((headIn .armed (some armed)).head .h0).mode = .armed ∧ (headIn .armed (some armed)).FlightOk ∧
    hot.limitTimer = some 8100 ∧ (headIn .heating (some hot)).inFlight .h0 = false ∧
    ((flying (headIn .heating (some hot))).stage .s0).segment.map Segment.head = some .h0 ∧
    ((headIn .stopping (some hot)).head .h0).mode = .stopping ∧
    (((headIn .tuning (some armed)).modHead .h0 fun r => { r with temp := { r.temp with lostTimer := some 1100 } }).head
      .h0).temp.lostTimer = some 1100 := by
  refine ⟨by decide, by decide, by decide, by decide, ?_, by decide, by decide, by decide, by decide, by decide⟩
  intro g
  cases g <;> refine ⟨?_, ?_, ?_⟩ <;> intro x e <;> exact absurd e (by decide +revert)

/-- A recipe whose RAMP phases 2 and 3 end at T_end 640 °C and 800 °C. -/
def ramps (last : Bool) : Recipe :=
  { recipe with phases := [.soak (.time 1000) ⟨640, 40, 3000, 1000, 9000, 1000⟩, .ramp 120 ⟨640, 40, 3000, 1000, 9000, 8000⟩] ++
      if last then [] else [.ramp 120 ⟨800, 40, 3000, 1000, 9000, 8000⟩] }

/-- A joint moves on to a SOAK phase; past a RAMP phase of no length to the next; past one to the recipe's end; and from
the last phase to the end with either outcome. -/
theorem moves_on :
    (∃ k, (hot.closedAt 1500).movesOn recipe 1500 (some 635) 1 k none) ∧
    (∃ k, (hot.closedAt 1500).movesOn (ramps false) 1500 (some 635) 1 k none) ∧
    (∃ k, (hot.closedAt 1500).movesOn (ramps true) 1500 (some 635) 1 k (some .done)) ∧
    (∃ k, (last.closedAt 1500).movesOn recipe 1500 none 2 k (some .done)) ∧
    (∃ k, (({ last with energy := 19999 } : Joint).closedAt 1500).movesOn recipe 1500 none 2 k (some .lowEnergy)) ∧
    ∃ k, armed.movesOn recipe 1500 none 0 k none := by
  have none_ : ∀ (r : Recipe) tf n, r.passes tf n 0 := fun _ _ _ k below => absurd below (by omega)
  have one : ∀ last, (ramps last).passes (some 635) 1 1 := fun last k below => by
    cases (by omega : k = 0)
    cases last <;> exact ⟨_, _, 635, rfl, rfl, by decide⟩
  refine ⟨⟨_, 0, none_ _ _ _, .inl ⟨_, rfl, ?_, rfl, rfl⟩⟩, ⟨_, 1, one _, .inl ⟨_, rfl, ?_, rfl, rfl⟩⟩,
    ⟨_, 1, one _, .inr ⟨by decide, rfl, by decide⟩⟩, ⟨_, 0, none_ _ _ _, .inr ⟨by decide, rfl, by decide⟩⟩,
    ⟨_, 0, none_ _ _ _, .inr ⟨by decide, rfl, by decide⟩⟩, ⟨_, 0, none_ _ _ _, .inl ⟨_, rfl, ?_, rfl, rfl⟩⟩⟩
  · intro rate f t e; cases e
  · intro rate f t e tf; cases e; cases tf; decide
  · intro rate f t _ tf; cases tf

theorem witness_DurationExpiryExitsPhase : base.inReset = false ∧ last.durationTimer = some 1500 ∧
    ((headIn .heating (some last)).head .h0).joint = some last ∧ (headIn .heating (some last)).inFlight .h0 = false ∧
    (flying (headIn .heating (some last))).inFlight .h0 = true ∧ last.recipe = some recipe ∧ last.phase = some 2 ∧
    recipe.phases.length ≤ 2 ∧ hot.phase = some 1 ∧ recipe.phases[1]? = some (.soak (.time 1000) ⟨640, 40, 3000, 1000, 9000, 1000⟩) ∧
    (∀ rate f, Phase.soak (.time 1000) ⟨640, 40, 3000, 1000, 9000, 1000⟩ ≠ .ramp rate f) ∧
    ((headIn .stopping (some last)).head .h0).mode = .stopping := by
  refine ⟨by decide, by decide, by decide, by decide, by decide, by decide, by decide, by decide, by decide, by decide, ?_,
    by decide⟩
  simp

/-- H0 in a state with a joint and with Tf at the value given. -/
def warm (m : HeadMode) (j : Joint) (tf : Nat) : State :=
  (headIn m (some j)).modHead .h0 fun r => { r with temp := { r.temp with tf := some tf } }

theorem witness_SampleActsByState : base.inReset = false ∧ (base.head .h0).settings.channelEnabled = true ∧
    ((base.modHead .h0 fun r => { r with settings := { r.settings with channelEnabled := false } }).head
      .h0).settings.channelEnabled = false ∧ (base.head .h0).joint = none ∧
    max 150 (min 149 1100) = 150 ∧ max 150 (min 1101 1100) = 1100 ∧
    ((warm .armed armed 420).head .h0).mode = .armed ∧ ((warm .stopping hot 420).head .h0).mode = .stopping ∧
    hot.recipe = some recipe ∧ recipe.overtempCeiling < filterTf 1 (some 900) 901 ∧
    filterTf 1 (some 900) 900 ≤ recipe.overtempCeiling ∧ hot.phase = some 1 ∧
    filterTf 1 (some 634) 634 + recipe.exitBand < 640 ∧ 640 ≤ filterTf 1 (some 635) 635 + recipe.exitBand ∧
    ({ recipe with phases := [.ramp 120 ⟨640, 40, 3000, 1000, 9000, 8000⟩] } : Recipe).phases.length ≤ 1 ∧
    (warm .heating hot 635).inFlight .h0 = false ∧ last.phase = some 2 ∧ hot.tEntry = some 300 ∧
    ((flying (warm .heating hot 635)).stage .s0).segment.map Segment.head = some .h0 ∧
    recipe.phases[0]? = some (.ramp 120 ⟨640, 40, 3000, 1000, 9000, 8000⟩) ∧
    recipe.phases[1]? = some (.soak (.time 1000) ⟨640, 40, 3000, 1000, 9000, 1000⟩) := by decide

theorem witness_SegmentReportCases : base.inReset = false ∧ (base.stage .s0).segment = none ∧
    ((flying (headIn .stopping (some { hot with cause := some .clampLost }))).stage .s0).segment.map Segment.head = some .h0 ∧
    ((flying (headIn .stopping (some { hot with cause := some .clampLost }))).head .h0).joint.map Joint.cause =
      some (some .clampLost) ∧ (base.stage .s0).deferred = false := by decide

/-- The state of `flying` with a joint at the energy given. -/
def counting (energy : Nat) : State := flying (headIn .heating (some { last with energy := energy }))

theorem witness_HeatReportCounts : (counting 100).inReset = false ∧
    ((counting 100).stage .s0).segment.map Segment.head = some .h0 ∧ ((counting 100).head .h0).mode = .heating ∧
    ((counting 100).head .h0).settings.stage = .s0 ∧ ((counting 100).stage .s0).deferred = false ∧
    (max (-90) (min (8 : Int) 90)).natAbs ≤ ((counting 100).head .h0).settings.angleWindow ∧ recipe.energyCeiling ≠ 0 ∧
    last.ceiling ≤ ({ last with energy := 49801 }.count 199060).energy ∧
    ¬ last.ceiling ≤ ({ last with energy := 49000 }.count 199060).energy ∧ ({ last with exitPending := true }).exitPending =
      true ∧ recipe.phases.length ≤ 2 ∧ ((counting 100).head .h0).joint.map Joint.recipe = some (some recipe) ∧
    ((counting 100).head .h0).joint.map Joint.phase = some (some 2) ∧
    ((counting 100).head .h0).settings.angleWindow < (max (-90) (min (9 : Int) 90)).natAbs ∧
    (∃ k, (({ last with exitPending := true } : Joint).count 199060 |>.closedAt 1003).movesOn recipe 1003 none 2 k
      (some .done)) ∧
    ({ hot with recipe := some { recipe with phases := [.soak (.energy 200) ⟨640, 40, 3000, 1000, 9000, 1000⟩] },
                entryEnergy := 24317, thresholds := [some 200] } : Joint).thresholds[0]?.join = some 200 ∧
    200 ≤ (hot.count 199060).energy - 24317 := by
  refine ⟨by decide, by decide, by decide, by decide, by decide, by decide, by decide, by decide, by decide, by decide,
    by decide, by decide, by decide, by decide, ?_, by decide, by decide⟩
  exact ⟨_, 0, fun k below => absurd below (by omega), .inr ⟨by decide, rfl, by decide⟩⟩

theorem witness_ProbeReportsSearchAndLock : (flying (headIn .tuning (some armed))).inReset = false ∧
    ((flying (headIn .tuning (some armed))).stage .s0).segment.map Segment.head = some .h0 ∧
    ((flying (headIn .tuning (some armed))).head .h0).settings.stage = .s0 ∧ recipe.energyCeiling ≠ 0 ∧
    ¬ armed.ceiling ≤ (armed.count 199060).energy ∧
    armed.ceiling ≤ (({ armed with energy := 49801 } : Joint).count 199060).energy ∧ ((headIn .tuning (some armed)).head .h0).mode = .tuning ∧
    ((headIn .tuning (some armed)).head .h0).joint = some armed ∧ armed.recipe = some recipe ∧
    ((headIn .tuning (some armed)).head .h0).settings.angleWindow = 8 ∧ ¬ (0 < 0) ∧
    (max (-90) (min (-8 : Int) 90)).natAbs ≤ 8 ∧ ¬ (max (-90) (min (9 : Int) 90)).natAbs ≤ 8 ∧
    recipe.rMin ≤ 200 ∧ 400 ≤ recipe.rMax ∧ ¬ 401 ≤ recipe.rMax ∧
    ((headIn .tuning (some armed)).head .h0).tuning.lastLock = none ∧
    (((headIn .tuning (some armed)).modHead .h0 fun r =>
      { r with tuning := { r.tuning with lastLock := some ⟨5, 310⟩, currentTap := 13 } }).head .h0).tuning.lastLock =
      some ⟨5, 310⟩ ∧ 15 * 310 < (357 - 310) * 100 ∧ (356 - 310) * 100 ≤ 15 * 310 := by decide

theorem witness_SlotAndSplitExpiry : serving.inReset = false ∧
    ((serving.stage .s0).running.map fun x => (x.slot, x.slotTimer)) = some (1, 1020) ∧
    (serving.stage .s0).active = some frame ∧ (serving.stage .s0).deferred = false ∧
    (serving.stage .s0).pendingFrame = none ∧ (frame[2]?).map Slot.length = some 60 ∧ (frame[1]?).map Slot.length = some 0 ∧
    (frame[0]?).map Slot.length = some 40 ∧ frame[3]? = none ∧ (serving.stage .s0).segment = none ∧
    ((flying serving).stage .s0).segment.isSome ∧ (runningOf 3 ⟨60, .split .h1 .h2 20⟩ 1020).splitTimer = some 1040 ∧
    (late.stage .s0).deferred = true ∧ (late.stage .s0).pendingFrame = some [⟨0, .passive⟩, ⟨30, .rotate⟩] ∧
    (late.stage .s0).running.map Running.slotTimer = some 1080 ∧
    firstLive frame 1 ⟨40, .prefer .h0 .h1⟩ ∧ firstLive [⟨0, .passive⟩, ⟨30, .rotate⟩] 2 ⟨30, .rotate⟩ :=
  ⟨by decide, by decide, by decide, by decide, by decide, by decide, by decide, by decide, by decide, by decide, by decide,
    by decide, by decide, by decide, by decide, frame_first⟩

theorem witness_DecisionHandsOverSegment : (serving.stage .s0).running.isSome ∧
    (serving.stage .s0).active = some frame ∧ slotAt frame 1 = some ⟨40, .prefer .h0 .h1⟩ ∧
    ((serving.stage .s0).running.map fun run => (serving.choose .s0 run (.prefer .h0 .h1)).recipient) = some (some .h0) ∧
    ((serving.stage .s0).running.map fun run => (held.choose .s0 run (.prefer .h0 .h1)).recipient) = some none ∧
    (serving.head .h0).mode ≠ .tuning ∧ (serving.heatDecision .s0 .h0).isSome ∧
    ((headIn .tuning (some armed)).head .h0).mode = .tuning := by decide

theorem witness_PreferSlotChoosesByOrder : serving.wantsPower .h0 = true ∧ serving.wantsPower .h1 = false ∧
    base.wantsPower .h0 = false ∧ held.wantsPower .h0 = false ∧ (serving.head .h0).settings.stage = .s0 ∧
    (Head.all.filter serving.wantsPower) = [.h0] ∧ (Head.all.filter held.wantsPower) = [] ∧
    (State.choose (serving.modStage .s0 fun r => { r with lastServed := some (.h0, 980) }) .s0
      (runningOf 1 ⟨40, .chain .h0 .rotate⟩ 980) (.chain .h0 .rotate)).continuation = true ∧
    (serving.choose .s0 (runningOf 1 ⟨40, .chain .h0 .passive⟩ 980) (.chain .h0 .passive)).rule = .passive ∧
    (serving.choose .s0 (runningOf 1 ⟨40, .fixed .h1 .rotate⟩ 980) (.fixed .h1 .rotate)).recipient = some .h0 := by decide

theorem witness_EraseBankChecksAndStarts : base.inReset = false ∧ 3 < 4 ∧ (3 : Fin 4).val = 3 ∧ (0 : Fin 4).val = 0 ∧
    (stored true).store.mode ≠ .ready ∧ (stored false).store.mode = .ready ∧
    ({ base with store := { base.store with eraseError := true } } : State).store.eraseError = true ∧
    (stored false).store.programError = false ∧ (stored false).store.eraseError = false ∧
    base.store.workingEnable = false ∧ (stored false).store.workingEnable = true ∧ 2 ≤ 2 ∧
    ¬ (2 ≤ 1 ∨ ((stored false).store.masterEnable = true ∧ base.cell.key.taken = some .high)) := by decide +kernel

theorem witness_ProgramProtectAndClear : base.inReset = false ∧ 63 < 64 ∧ (63 : Fin 64).val = 63 ∧
    parseRecipe (recipeBytes recipe) = some recipe ∧ recipe.valid = true ∧
    parseRecipe (recipeBytes { recipe with exitBand := 21 }) = some { recipe with exitBand := 21 } ∧
    ({ recipe with exitBand := 21 } : Recipe).valid = false ∧ (stored true).store.mode ≠ .ready ∧
    (stored false).store.mode = .ready ∧ (stored false).store.entries[61] = .blank ∧
    (stored false).store.entries[62] ≠ .blank ∧ 1 < 2 ∧ base.store.masterEnable = false ∧
    State.reset.cell.key.taken ≠ some .high ∧ base.cell.key.taken = some .high := by decide +kernel

/-- The store with an operation whose timer runs out at 1400. -/
def working (m : StoreMode) (op : StoreOp) : State :=
  { base with store := { base.store with mode := m, op := some op, opTimer := some 1400 } }

theorem witness_StoreTimersComplete : (working .programming (.program 40 recipe)).store.waiting = [] ∧
    (working .programming (.program 40 recipe)).store.op = some (.program 40 recipe) ∧
    (working .erasing (.erase 2)).store.op = some (.erase 2) ∧ (working .erasing (.erase 2)).store.opTimer = some 1400 ∧
    ({ base with store := { base.store with suspendTimer := some 1151 } } : State).store.suspendTimer = some 1151 ∧
    ({ base with store := { base.store with waiting := [⟨.h0, 63⟩] } } : State).store.waiting = [⟨.h0, 63⟩] ∧
    (stored false).store.entries[63]? = some (.valid recipe) ∧ (stored false).store.entries[62]? = some .spoiled ∧
    (stored false).store.mode = .ready ∧ (working .programming (.program 40 recipe)).store.mode = .programming ∧
    (working .erasing (.erase 2)).store.mode = .erasing ∧ (2 : Fin 4).val = 37 / 16 ∧ (2 : Fin 4).val ≠ 5 / 16 ∧
    base.cell.eraseSuspend = false ∧ (working .eraseSuspended (.erase 2)).store.mode = .eraseSuspended := by decide +kernel

theorem witness_OutstandingCountsJobs : busy.IndexOk ∧ busy.JointsOk := by
  refine ⟨⟨?_, by decide⟩, witness_JointMatchesHeadState⟩
  intro tag
  by_cases e : tag = 12
  · subst e; decide
  · have e' : (12 : Nat) ≠ tag := Ne.symm e
    have l : busy.outstanding tag = 0 := by simp [busy, State.outstanding, trackerFind, e']
    have r : busy.jobsOf tag = 0 := by
      show (([{ job with jobTag := 211 }].filter fun j => j.indexTag = tag).length +
        ([hot].filter fun j => j.job.indexTag = tag).length) + 0 = 0
      have a : job.indexTag = 12 := rfl
      have b : hot.job.indexTag = 12 := rfl
      simp [a, b, e']
    rw [l, r]

theorem witness_SetpointBounds : powerFloor 105 = 110 ∧ powerFloor 105 ≤ powerCap 5000 15000 12000 ∧
    powerCap 100 15000 12000 < powerFloor 105 ∧ (110 : Int) ≤ roundPower 114 ∧ roundPower 114 ≤ powerCap 5000 15000 12000 ∧
    200 ≤ 620 ∧ 0 ≤ 40 ∧ ((warm .heating hot 420).head .h0).joint = some hot ∧ hot.recipe = some recipe ∧
    hot.phase = some 1 ∧ recipe.phases[0]? = some (.ramp 120 ⟨640, 40, 3000, 1000, 9000, 8000⟩) ∧ hot.tEntry = some 300 ∧
    ((warm .heating hot 420).head .h0).temp.tf = some 420 ∧ ((warm .heating hot 420).head .h0).temp.lastTaken = none ∧
    (((warm .heating hot 420).modHead .h0 fun r => { r with temp := { r.temp with lastTaken := some 970 } }).head
      .h0).temp.lastTaken = some 970 ∧ 1000 - 970 ≤ (base.head .h0).settings.staleLimit ∧
    (base.head .h0).settings.staleLimit < 1000 - 969 ∧ (base.head .h0).settings.stalePolicy = .holdLast := by decide

end Sys2Proof.Tests
end

section
/-! The range of the energy account and of Tf (R67, R68, R140 to R142). The condition is head by head, so it is named
for a joint, for a head and for the state; each operation of the model then has one lemma that says it keeps the
condition, named after the operation, and a proof about a command cites those. -/

namespace Sys2Proof.Machine

/-! ## The condition, and what a change of one head leaves of it -/

/-- E_J and its remainder are in range (R67, R68). -/
def Joint.HeatBounded (j : Joint) : Prop := j.energy ≤ 999999 ∧ j.remainder < 1000

/-- The head's joint, where it has one, and its Tf, where it has one, are in range. -/
def HeadRec.HeatBounded (r : HeadRec) : Prop :=
  (∀ j, r.joint = some j → j.HeatBounded) ∧ ∀ t, r.temp.tf = some t → 150 ≤ t ∧ t ≤ 1100

/-- Every head is in range. An update that touches no head, or no joint and no Tf, keeps this by computation. -/
def State.HeatBounded (s : State) : Prop := ∀ h, (s.head h).HeatBounded

theorem State.heatBounded_iff (s : State) : s.HeatBounded ↔ s.EnergyOk ∧ s.TempOk :=
  ⟨fun ok => ⟨fun h => (ok h).1, fun h => (ok h).2⟩, fun ok h => ⟨ok.1 h, ok.2 h⟩⟩

/-- Every next state an outcome answers is in range. -/
def NextHeatBounded (o : Host.Outcome State Fault Refusal) : Prop := ∀ t, o = .next t → t.HeatBounded

theorem nextHeatBounded_next {s : State} (ok : s.HeatBounded) : NextHeatBounded (.next s) := by
  rintro t ⟨rfl⟩; exact ok

namespace HeadRec.HeatBounded

variable {r : HeadRec}

theorem withJoint (ok : r.HeatBounded) {j : Joint} (bounded : j.HeatBounded) :
    HeadRec.HeatBounded { r with joint := some j } :=
  ⟨fun _ e => Option.some.inj e ▸ bounded, ok.2⟩

theorem mapJoint (ok : r.HeatBounded) {f : Joint → Joint} (keeps : ∀ j, j.HeatBounded → (f j).HeatBounded) :
    HeadRec.HeatBounded { r with joint := r.joint.map f } := by
  refine ⟨fun j e => ?_, ok.2⟩
  obtain ⟨k, active, rfl⟩ := Option.map_eq_some_iff.1 e
  exact keeps k (ok.1 k active)

/-- A head that holds neither a joint nor a Tf is in range. -/
theorem of_none (joint : r.joint = none) (tf : r.temp.tf = none) : r.HeatBounded :=
  ⟨fun _ e => by simp [joint] at e, fun _ e => by simp [tf] at e⟩

end HeadRec.HeatBounded

namespace State.HeatBounded

variable {s : State}

theorem setHead (ok : s.HeatBounded) {h : Head} {r : HeadRec} (bounded : r.HeatBounded) :
    (s.setHead h r).HeatBounded := by
  intro k
  rw [State.head_setHead]
  split
  · exact bounded
  · exact ok k

theorem modHead (ok : s.HeatBounded) (h : Head) {f : HeadRec → HeadRec}
    (keeps : ∀ r, r.HeatBounded → (f r).HeatBounded) : (s.modHead h f).HeatBounded :=
  ok.setHead (keeps _ (ok h))

theorem raise (ok : s.HeatBounded) (e : Event) : (s.raise e).HeatBounded := ok

theorem modJoint (ok : s.HeatBounded) (h : Head) {f : Joint → Joint}
    (keeps : ∀ j, j.HeatBounded → (f j).HeatBounded) : (s.modJoint h f).HeatBounded :=
  ok.modHead h fun _ bounded => bounded.mapJoint keeps

end State.HeatBounded

/-! ## The energy account and the phases of a joint (R35 to R41, R67, R68) -/

/-- A report's energy is counted into the range, whatever the joint held before (R67, R68). -/
theorem Joint.count_heatBounded (j : Joint) (eSeg : Nat) : (j.count eSeg).HeatBounded := by
  unfold Joint.count
  dsimp only
  split
  · exact ⟨by simp [maxEnergy], by simp⟩
  · next fits => exact ⟨by simpa [maxEnergy] using fits, Nat.mod_lt _ (by decide)⟩

namespace Joint.HeatBounded

variable {j : Joint}

/-- The walk through the phases counts no energy. -/
theorem enterPhases (bounded : j.HeatBounded) (now : Nat) (tf : Option Nat) (band : Nat) (ps : List Phase) (n : Nat) :
    (Joint.enterPhases now tf band ps n j).1.HeatBounded := by
  induction ps generalizing n j with
  | nil => exact bounded
  | cons p rest ih =>
    unfold Joint.enterPhases
    split
    · split
      · exact ih (j := (j.openPhase now _ n _).closePhase now) bounded _
      · exact bounded
    · exact bounded

theorem enterFirst (bounded : j.HeatBounded) (now : Nat) (tf : Option Nat) : (j.enterFirst now tf).1.HeatBounded := by
  unfold Joint.enterFirst
  split
  · exact bounded.enterPhases _ _ _ _ _
  · exact bounded

theorem exitPhase (bounded : j.HeatBounded) (now : Nat) (tf : Option Nat) : (j.exitPhase now tf).1.HeatBounded := by
  unfold Joint.exitPhase
  split
  · exact HeatBounded.enterPhases (j := j.closePhase now) bounded _ _ _ _ _
  · exact bounded

theorem reportExits (bounded : j.HeatBounded) (now : Nat) (tf : Option Nat) :
    (j.reportExits now tf).1.HeatBounded := by
  have pending : (if j.exitPending then j.exitPhase now tf else (j, none)).1.HeatBounded := by
    split
    · exact bounded.exitPhase now tf
    · exact bounded
  unfold Joint.reportExits
  split
  · split
    · exact bounded.exitPhase now tf
    · exact pending
  · exact pending

theorem firstEntry (bounded : j.HeatBounded) (tf : Nat) : (j.firstEntry tf).HeatBounded := by
  unfold Joint.firstEntry
  split <;> exact bounded

end Joint.HeatBounded

/-! ## The filter (R140, R142) -/

/-- A quotient to the nearest whole number does not pass the number divided. -/
theorem halfUp_bounds {p d : Int} (pos : 0 < p) (nonneg : 0 ≤ d) :
    0 ≤ (d + p) / (2 * p) ∧ (d + p) / (2 * p) ≤ d := by
  refine ⟨Int.ediv_nonneg (by omega) (by omega), Int.lt_add_one_iff.1 ?_⟩
  rw [Int.ediv_lt_iff_lt_mul (by omega), Int.add_mul, Int.one_mul]
  have scaled : d * 1 ≤ d * (2 * p) := Int.mul_le_mul_of_nonneg_left (by omega) nonneg
  omega

/-- The filter steps toward the sample and not past it (R142). -/
theorem filterStep_bounds (k : Nat) (d : Int) :
    (0 ≤ d → 0 ≤ filterStep k d ∧ filterStep k d ≤ d) ∧ (d ≤ 0 → d ≤ filterStep k d ∧ filterStep k d ≤ 0) := by
  cases k with
  | zero => simp [filterStep]
  | succ m =>
    have pos : (0 : Int) < 2 ^ m := Int.pow_pos (by decide)
    have double : (2 : Int) ^ (m + 1) = 2 * 2 ^ m := by rw [Int.pow_succ, Int.mul_comm]
    have up := halfUp_bounds pos (d := d)
    have down := halfUp_bounds pos (d := -d)
    have zero := halfUp_bounds pos (d := 0) (Int.le_refl 0)
    simp only [filterStep, Nat.add_one_ne_zero, if_false, Nat.add_sub_cancel, double]
    split
    · next nonneg =>
      refine ⟨up, fun nonpos => ?_⟩
      obtain rfl : d = 0 := Int.le_antisymm nonpos nonneg
      exact zero
    · next neg => exact ⟨fun nonneg => absurd nonneg neg, fun nonpos => by have := down (by omega); omega⟩

/-- Tf stays in range under a sample in range (R142). -/
theorem filterTf_bounds {v : Nat} (low : 150 ≤ v) (high : v ≤ 1100) (k : Nat) {tf : Option Nat}
    (before : ∀ t, tf = some t → 150 ≤ t ∧ t ≤ 1100) : 150 ≤ filterTf k tf v ∧ filterTf k tf v ≤ 1100 := by
  cases tf with
  | none => exact ⟨low, high⟩
  | some t =>
    obtain ⟨tLow, tHigh⟩ := before t rfl
    obtain ⟨up, down⟩ := filterStep_bounds k ((v : Int) - t)
    simp only [filterTf]
    rcases Nat.le_total t v with rises | falls
    · have := up (by omega); omega
    · have := down (by omega); omega

/-- A sample that is taken is brought into range first (R140). -/
theorem sampleValue_bounds {m : Sample} {v : Nat} {isUnder isOver : Bool}
    (taken : sampleValue m = some (v, isUnder, isOver)) : 150 ≤ v ∧ v ≤ 1100 := by
  cases m with
  | reading c =>
    by_cases cold : c < 150
    · simp [sampleValue, minTemp, cold] at taken; omega
    · by_cases hot : 1100 < c
      · simp [sampleValue, minTemp, maxTemp, cold, hot] at taken; omega
      · simp [sampleValue, minTemp, maxTemp, cold, hot] at taken; omega
  | underRange => cases taken; decide
  | overRange => cases taken; decide
  | sensorFault => cases taken

theorem HeadRec.HeatBounded.takeSample {r : HeadRec} (ok : r.HeatBounded) {v : Nat} (low : 150 ≤ v) (high : v ≤ 1100)
    (now : Nat) (isUnder isOver : Bool) : (r.takeSample now v isUnder isOver).HeatBounded := by
  cases active : r.joint with
  | none => simp only [HeadRec.takeSample, active]; exact ⟨fun _ e => by simp at e, ok.2⟩
  | some j =>
    simp only [HeadRec.takeSample, active]
    exact ⟨fun _ e => Option.some.inj e ▸ ok.1 j active,
      fun _ e => Option.some.inj e ▸ filterTf_bounds low high j.filterDepth ok.2⟩

/-! ## The job manager (R8 to R18) -/

/-- An activated job starts with no energy (R10). -/
theorem Joint.ofJob_heatBounded (now : Nat) (job : Job) : (Joint.ofJob now job).HeatBounded := by
  simp [Joint.HeatBounded, Joint.ofJob]

/-- The end of a joint leaves its head without a joint and without a Tf (R18, R141). -/
theorem State.HeatBounded.endCore {s : State} (ok : s.HeatBounded) (h : Head) (o : JointOutcome) :
    (s.endCore h o).HeatBounded := by
  cases active : (s.head h).joint with
  | none => rwa [State.endCore_none active]
  | some j =>
    obtain ⟨tr, rep, q, _⟩ := State.endCore_some active o
    rw [q]
    exact setHead (s := { s with tracker := tr, report := rep }) ok (.of_none rfl rfl)

/-- The job manager's moves keep every head in range: an activated job starts with no energy and no Tf (R10, R141), and
no other move counts energy or sets Tf. -/
theorem heatBounded_keepsJobMoves : KeepsJobMoves State.HeatBounded where
  activates {_ _ job _} ok _ _ :=
    ok.setHead ⟨fun _ e => Option.some.inj e ▸ Joint.ofJob_heatBounded _ job, fun _ e => by cases e⟩
  loads ok := ok.modJoint _ fun _ bounded => bounded
  starts {_ h} ok _ := ok.setHead ((ok h).mapJoint (f := fun j => { j with armTimer := none, startTime := some _ })
    fun _ bounded => bounded)
  ends ok := ok.endCore _ _
  queues ok := ok
  suspends ok := ok

namespace State.HeatBounded

variable {s : State}

theorem retry (ok : s.HeatBounded) : s.retry.HeatBounded := heatBounded_keepsJobMoves.retry ok

theorem startCheck (ok : s.HeatBounded) (h : Head) : (s.startCheck h).HeatBounded :=
  heatBounded_keepsJobMoves.startCheck ok h

theorem startChecks (ok : s.HeatBounded) (hs : List Head) : (s.startChecks hs).HeatBounded :=
  heatBounded_keepsJobMoves.startChecks ok hs

theorem endRecorded (ok : s.HeatBounded) (h : Head) : (s.endRecorded h).HeatBounded :=
  heatBounded_keepsJobMoves.endRecorded ok h

theorem stopJoint (ok : s.HeatBounded) (h : Head) : (s.stopJoint h).HeatBounded := by
  rw [State.stopJoint_eq, State.cutSegment_eq]
  exact setHead (s := s.setStage _ _) ok (ok h)

theorem takeCause (ok : s.HeatBounded) (h : Head) (o : JointOutcome) : (s.takeCause h o).HeatBounded :=
  heatBounded_keepsJobMoves.takeCause (fun ok => ok.modJoint _ fun _ bounded => bounded)
    (fun ok _ => ok.stopJoint _) ok h o

theorem takeCause? (ok : s.HeatBounded) (h : Head) (o : Option JointOutcome) : (s.takeCause? h o).HeatBounded := by
  cases o with
  | none => exact ok
  | some o => exact ok.takeCause h o

/-- A cause taken for each head that meets a test, in turn. -/
theorem takeCauses (ok : s.HeatBounded) (test : State → Head → Bool) (o : JointOutcome) :
    (s.eachHead test fun h s => s.takeCause h o).HeatBounded :=
  State.eachHead_keeps ok fun h _ ok _ => ok.takeCause h o

theorem serveAll (ok : s.HeatBounded) : s.serveAll.HeatBounded :=
  heatBounded_keepsJobMoves.serveWaiting (fun ok _ => ok) _ ok

theorem leaveJobs (ok : s.HeatBounded) (jobs : List Job) : (s.leaveJobs jobs).HeatBounded := by
  obtain ⟨_, _, q, _⟩ := s.leaveJobs_only jobs
  rw [q]; exact ok

theorem flushHead (ok : s.HeatBounded) (h : Head) : (s.flushHead h).HeatBounded :=
  (ok.modHead h (f := fun r => { r with queue := [] }) fun _ bounded => bounded).leaveJobs _

/-! ## The slot scheduler (R74 to R95) -/

theorem decideSlot (ok : s.HeatBounded) (g : Stage) : (s.decideSlot g).HeatBounded := by
  obtain ⟨r, q | ⟨h, d, sent, q⟩, _⟩ := s.decideSlot_only g
  · rw [q]; exact ok
  · rw [q]; exact modJoint (s := s.setStage g r) ok h fun _ bounded => bounded

theorem decideOrDefer (ok : s.HeatBounded) (g : Stage) : (s.decideOrDefer g).HeatBounded := by
  rcases s.decideOrDefer_cases g with ⟨_, q⟩ | ⟨_, q⟩
  · rw [q]; exact ok
  · rw [q]; exact ok.decideSlot g

theorem decideDeferred (ok : s.HeatBounded) (g : Stage) : (s.decideDeferred g).HeatBounded := by
  unfold State.decideDeferred
  split
  · exact decideSlot (s := s.modStage g _) ok g
  · exact ok

theorem dropOvertaken (ok : s.HeatBounded) (g : Stage) : (s.dropOvertaken g).HeatBounded := by
  unfold State.dropOvertaken
  split <;> exact ok

theorem adoptPending (ok : s.HeatBounded) (g : Stage) : (s.adoptPending g).HeatBounded := by
  rcases s.adoptPending_cases g with ⟨_, _, q⟩ | ⟨_, q⟩ <;> rw [q] <;> exact ok

theorem startSlot (ok : s.HeatBounded) (g : Stage) (n t : Nat) : (s.startSlot g n t).HeatBounded := by
  unfold State.startSlot
  split
  · split
    · exact decideOrDefer (s := s.modStage g _) ok g
    · exact ok
  · exact ok

theorem startFrame (ok : s.HeatBounded) (g : Stage) (t : Nat) : (s.startFrame g t).HeatBounded := by
  unfold State.startFrame
  split
  · split
    · exact ok.startSlot g _ t
    · exact ok
  · exact ok

theorem slotExpiry (ok : s.HeatBounded) (g : Stage) (run : Running) : (s.slotExpiry g run).HeatBounded := by
  have dropped := ok.dropOvertaken g
  unfold State.slotExpiry State.nextSlot
  split
  · split
    · exact dropped.startSlot g _ _
    · exact (dropped.adoptPending g).startFrame g _
  · exact dropped

theorem splitExpiry (ok : s.HeatBounded) (g : Stage) (run : Running) (t : Nat) :
    (s.splitExpiry g run t).HeatBounded :=
  decideOrDefer (s := (s.dropOvertaken g).modStage g _) (ok.dropOvertaken g) g

theorem adoptNow (ok : s.HeatBounded) (g : Stage) (f : List Slot) : (s.adoptNow g f).HeatBounded := by
  unfold State.adoptNow
  dsimp only
  split
  · exact startFrame (s := State.raise (s.modStage g _) _) ok g _
  · exact ok

/-! ## The stage interface (R101 to R113) -/

theorem enterReady (ok : s.HeatBounded) (g : Stage) (checksFirst : Bool) :
    (s.enterReady g checksFirst).HeatBounded := by
  unfold State.enterReady
  dsimp only
  generalize ready : State.raise (s.modStage g _) _ = u
  have ok' : u.HeatBounded := ready ▸ ok
  split
  · exact (ok'.startChecks _).startFrame g _
  · exact (ok'.startFrame g _).startChecks _

theorem stopIfReady (ok : s.HeatBounded) (g : Stage) (before : StageMode) : (s.stopIfReady g before).HeatBounded := by
  rcases s.stopIfReady_cases g before with ⟨_, q⟩ | ⟨_, q⟩
  · rw [q]; exact adoptPending (s := s.setStage g _) ok g
  · rwa [q]

theorem faultMembers (ok : s.HeatBounded) (g : Stage) : (s.faultMembers g).HeatBounded := by
  unfold State.faultMembers
  exact ok.takeCauses _ _

theorem enterFault (ok : s.HeatBounded) (g : Stage) (cause : FaultCause) (code : Nat) :
    (s.enterFault g cause code).HeatBounded :=
  ((stopIfReady (s := s.faultStage g cause code) ok g _).faultMembers g).raise _

theorem turnOff (ok : s.HeatBounded) (g : Stage) : (s.turnOff g).HeatBounded :=
  stopIfReady (s := State.send (s.modStage g _) g .busOff) ok g _

theorem estopStage (ok : s.HeatBounded) (g : Stage) : (s.estopStage g).HeatBounded := by
  rcases s.estopStage_cases g with ⟨_, q⟩ | ⟨_, q⟩
  · rw [q]; exact ok.turnOff g
  · rwa [q]

theorem busReported (ok : s.HeatBounded) (g : Stage) (ready : Bool) : (s.busReported g ready).HeatBounded := by
  unfold State.busReported
  dsimp only
  split
  · exact enterFault (s := s.modStage g _) ok g _ _
  · exact ok

theorem tripReported (ok : s.HeatBounded) (g : Stage) (code : Nat) : (s.tripReported g code).HeatBounded := by
  unfold State.tripReported
  split
  · exact ok.enterFault g _ _
  · exact ok.enterFault g _ _
  · exact ok
  · exact ok

theorem settleExpired (ok : s.HeatBounded) (g : Stage) (checksFirst : Bool) :
    (s.settleExpired g checksFirst).HeatBounded := by
  unfold State.settleExpired
  split
  · exact ok.enterReady g _
  · exact ok.enterFault g _ _

/-- A message acts only where it passes the integrity check (R116). -/
theorem ifIntact (ok : s.HeatBounded) (intact : Bool) {f : State → State} (acts : (f s).HeatBounded) :
    (Machine.ifIntact intact f s).HeatBounded := by
  cases intact
  · exact ok
  · exact acts

/-! ## The work of a segment report (R34, R41, R111, R124 to R132) -/

theorem raise? (ok : s.HeatBounded) (e : Option Event) : (s.raise? e).HeatBounded := by
  cases e <;> exact ok

theorem searchStep (ok : s.HeatBounded) (h : Head) : (s.searchStep h).state.HeatBounded := by
  unfold State.searchStep
  dsimp only
  split
  · exact ok.modHead h fun _ bounded => bounded
  · exact ok.modHead h fun _ bounded => bounded

theorem lockTap (ok : s.HeatBounded) (h : Head) (load : Nat) : (s.lockTap h load).state.HeatBounded :=
  ok.modHead h fun _ bounded => bounded.mapJoint (f := fun j => { j with lock := some _ }) fun _ bounded => bounded

theorem retune (ok : s.HeatBounded) (h : Head) (a : Int) : (s.retune h a).state.HeatBounded :=
  ok.modHead h fun _ bounded => bounded

theorem tunerTakes (ok : s.HeatBounded) (h : Head) (rep : SegReport) : (s.tunerTakes h rep).state.HeatBounded := by
  unfold State.tunerTakes
  dsimp only
  split
  · split
    · exact ok.lockTap h _
    · exact ok.searchStep h
  · split
    · exact ok
    · exact ok.retune h _
  · exact ok

theorem enterHeating (ok : s.HeatBounded) (h : Head) : (s.enterHeating h).1.HeatBounded := by
  unfold State.enterHeating
  split
  · next j active =>
    exact ok.modHead h fun _ bounded => bounded.withJoint (((ok h).1 j active).enterFirst _ _)
  · exact ok

theorem countReport (ok : s.HeatBounded) (h : Head) (rep : SegReport) (ordered : Nat) :
    (s.countReport h rep ordered).HeatBounded :=
  ok.modJoint h fun j _ => j.count_heatBounded _

theorem heatChecks (ok : s.HeatBounded) (h : Head) (heating : Bool) : (s.heatChecks h heating).1.HeatBounded := by
  unfold State.heatChecks
  split
  · exact ok
  · split
    · split
      · next j active =>
        exact ok.modHead h fun _ bounded => bounded.withJoint (((ok h).1 j active).reportExits _ _)
      · exact ok
    · exact ok

theorem takeTuner (ok : s.HeatBounded) (h : Head) (reply : TunerReply) : (s.takeTuner h reply).HeatBounded := by
  cases reply with
  | nothing => exact ok
  | lock => exact (ok.enterHeating h).takeCause? h _
  | cause o => exact ok.takeCause h o

theorem tunerThenHeat (ok : s.HeatBounded) (h : Head) (heating : Bool) (reply : TunerReply) :
    (s.tunerThenHeat h heating reply).HeatBounded := by
  cases reply with
  | nothing => exact (ok.heatChecks h heating).takeCause? h _
  | lock =>
    simp only [State.tunerThenHeat]
    split
    · exact (ok.enterHeating h).takeCause h _
    · exact (ok.enterHeating h).takeCause? h _
  | cause o => exact ok.takeCause h o

theorem flagPassedCeiling (ok : s.HeatBounded) (h : Head) (w : TunerWork) : (s.flagPassedCeiling h w).HeatBounded := by
  unfold State.flagPassedCeiling
  split
  · exact ok.modHead h fun _ bounded => bounded
  · exact ok

theorem reportWork (ok : s.HeatBounded) (h : Head) (rep : SegReport) (order : ReportOrder) (eventFirst : Bool) :
    (s.reportWork h rep order eventFirst).HeatBounded := by
  cases order with
  | tunerCauseFirst => exact (((ok.tunerTakes h rep).raise? _).tunerThenHeat h _ _).raise? _
  | tunerActsFirst =>
    have checked := fun heating e => ((ok.tunerTakes h rep).raise? e).heatChecks h heating
    simp only [State.reportWork]
    split
    · exact ((checked _ _).takeCause h _).raise? _
    · exact ((checked _ _).takeTuner h _).raise? _
  | heatFirst =>
    have checked := fun heating => ok.heatChecks h heating
    simp only [State.reportWork]
    split
    · exact ((checked _).takeCause h _).flagPassedCeiling h _
    · exact ((((checked _).tunerTakes h rep).raise? _).takeTuner h _).raise? _

theorem handReport (ok : s.HeatBounded) (h : Head) (rep : SegReport) (ordered : Nat) (order : ReportOrder)
    (eventFirst : Bool) : (s.handReport h rep ordered order eventFirst).HeatBounded := by
  have counted := ok.countReport h rep ordered
  unfold State.handReport
  split
  · exact counted.reportWork h rep order eventFirst
  · exact counted.reportWork h rep order eventFirst
  · exact counted.endRecorded h
  · exact ok

theorem segmentReported (ok : s.HeatBounded) (g : Stage) (rep : SegReport) (order : ReportOrder) (eventFirst : Bool) :
    (s.segmentReported g rep order eventFirst).HeatBounded := by
  unfold State.segmentReported
  split
  · exact ok
  · next seg _ =>
    have handed := handReport (s := s.dropSegment g) ok seg.head rep seg.duration order eventFirst
    dsimp only
    split
    · exact handed.enterFault g _ _
    · exact handed.decideDeferred g

/-! ## The phase timers and the samples (R38, R42, R144, R147) -/

theorem phaseExits (ok : s.HeatBounded) (h : Head) : (s.phaseExits h).HeatBounded := by
  unfold State.phaseExits
  split
  · next j active =>
    exact (ok.modHead h fun _ bounded => bounded.withJoint (((ok h).1 j active).exitPhase _ _)).takeCause? h _
  · exact ok

theorem durationExpired (ok : s.HeatBounded) (h : Head) : (s.durationExpired h).HeatBounded := by
  unfold State.durationExpired
  split
  · split
    · exact ok.modJoint h fun _ bounded => bounded
    · exact ok.phaseExits h
  · exact ok

theorem heatSample (ok : s.HeatBounded) (h : Head) : (s.heatSample h).HeatBounded := by
  unfold State.heatSample
  split
  · next j tf active _ =>
    have entered := ok.modHead h fun r bounded =>
      (show HeadRec.HeatBounded { r with joint := some _ } from bounded.withJoint (((ok h).1 j active).firstEntry tf))
    dsimp only
    split
    · exact entered.phaseExits h
    · exact entered
  · exact ok

theorem checkSample (ok : s.HeatBounded) (h : Head) : (s.checkSample h).HeatBounded := by
  unfold State.checkSample
  split
  · exact ok.takeCause h _
  · split
    · exact ok.heatSample h
    · exact ok

theorem sample (ok : s.HeatBounded) (h : Head) (m : Sample) : (s.sample h m).HeatBounded := by
  unfold State.sample
  split
  · have received := ok.modHead h
      (f := fun r => { r with temp := { r.temp with lastReceived := some (Sample.kind m, s.now) } })
      fun _ bounded => bounded
    dsimp only
    split
    · exact received
    · next taken =>
      obtain ⟨low, high⟩ := sampleValue_bounds taken
      exact (received.modHead h fun _ bounded => bounded.takeSample low high _ _ _).checkSample h
  · exact ok

/-! ## The interlock block (R152 to R164) -/

theorem setInput (ok : s.HeatBounded) (i : LineInput) (x : Input) : (s.setInput i x).HeatBounded := by
  cases i with
  | estop => exact ok
  | motion => exact ok
  | key => exact ok
  | clamp h => exact ok.modHead h fun _ bounded => bounded
  | flow h => exact ok.modHead h fun _ bounded => bounded

theorem lineChange (ok : s.HeatBounded) (i : LineInput) (level : Level) : (s.lineChange i level).HeatBounded := by
  unfold State.lineChange
  split
  · exact ok
  · exact ok.setInput i _

theorem takeLevel (ok : s.HeatBounded) (i : LineInput) : (s.takeLevel i).HeatBounded := ok.setInput i _

theorem takeChange (ok : s.HeatBounded) (i : LineInput) (level : Level) {act : State → State}
    (acts : ∀ u : State, u.HeatBounded → (act u).HeatBounded) : (s.takeChange i level act).HeatBounded := by
  rcases s.takeChange_cases i level act with ⟨_, q⟩ | ⟨_, q⟩
  · rw [q]; exact ok.takeLevel i
  · rw [q]; exact acts _ (ok.takeLevel i)

theorem estopStages (ok : s.HeatBounded) : s.estopStages.HeatBounded := (ok.estopStage .s0).estopStage .s1

theorem estopJoints (ok : s.HeatBounded) : s.estopJoints.HeatBounded := ok.takeCauses _ .abortedEstop

/-- The ESTOP event stands at one of three places; wherever it is raised, no head changes. -/
theorem raiseAt (ok : s.HeatBounded) (p : Prop) [Decidable p] (e : Event) :
    (if p then s.raise e else s).HeatBounded := by
  split <;> exact ok

theorem estopTaken (ok : s.HeatBounded) : s.estopTaken.HeatBounded := by
  have interlocked : s.chose.estopMode.HeatBounded := ok
  unfold State.estopTaken State.estopAssert State.estopActs
  cases Config.stagesOffFirst s.choices
  · exact (((interlocked.raiseAt _ _).estopJoints.raiseAt _ _).estopStages).raiseAt _ _
  · exact (((interlocked.raiseAt _ _).estopStages.raiseAt _ _).estopJoints).raiseAt _ _

theorem motionFlush (ok : s.HeatBounded) : s.motionFlush.HeatBounded := by
  unfold State.motionFlush
  split
  · exact foldl_keeps _ ok fun _ h ok => ok.flushHead h
  · exact ok

theorem motionAssert (ok : s.HeatBounded) : s.motionAssert.HeatBounded := by
  unfold State.motionAssert
  split
  · exact (motionFlush (s := s.motionInterlocks) ok).takeCauses _ .abortedMotion
  · exact ok

theorem raiseIf (ok : s.HeatBounded) (b : Bool) (e : Event) : (s.raiseIf b e).HeatBounded := ok.raiseAt _ e

theorem clampFell (ok : s.HeatBounded) (h : Head) : (s.clampFell h).HeatBounded := (ok.takeCause h _).raiseIf _ _

theorem clampRose (ok : s.HeatBounded) (h : Head) : (s.clampRose h).HeatBounded := by
  have seen : (s.clampSeen h).HeatBounded := by
    unfold State.clampSeen
    split
    · exact ok.modJoint h fun _ bounded => bounded
    · exact ok
  exact (seen.startCheck h).raiseIf _ _

theorem setGrace (ok : s.HeatBounded) (h : Head) (t : Option Nat) : (s.setGrace h t).HeatBounded :=
  ok.modHead h fun _ bounded => bounded

theorem flowFell (ok : s.HeatBounded) (h : Head) : (s.flowFell h).HeatBounded := by
  unfold State.flowFell
  dsimp only
  split
  · exact setGrace (s := s.raise _) ok h _
  · exact ok

theorem flowRose (ok : s.HeatBounded) (h : Head) : (s.flowRose h).HeatBounded :=
  (setGrace (s := s.raise _) ok h none).startCheck h

theorem graceExpired (ok : s.HeatBounded) (h : Head) : (s.graceExpired h).HeatBounded :=
  ((ok.setGrace h none).takeCause h _).raise _

/-! ## The store and the resets (R180, R182, R195) -/

theorem storeDone (ok : s.HeatBounded) (t : StoreRec) (e : Event) : (s.storeDone t e).HeatBounded := by
  unfold State.storeDone
  dsimp only
  split <;> exact serveAll ok

theorem programDone (ok : s.HeatBounded) (passed : Bool) : (s.programDone passed).HeatBounded := by
  unfold State.programDone
  split
  · exact ok.storeDone _ _
  · exact ok
  · exact ok

theorem eraseDone (ok : s.HeatBounded) (passed : Bool) : (s.eraseDone passed).HeatBounded := by
  unfold State.eraseDone
  split
  · exact ok.storeDone _ _
  · exact ok
  · exact ok

theorem suspendEnds (ok : s.HeatBounded) : s.suspendEnds.HeatBounded :=
  serveAll (s := { s with store := { s.store with suspendTimer := none } }) ok

/-- A reset leaves no joint and no Tf on any head (R26, R141). -/
theorem of_resetPart (s : State) (kind : ResetKind) (strap : Rate) (store : StoreRec) :
    (s.resetPart kind strap store).HeatBounded := by
  intro h
  simp only [State.head, State.resetPart, PerHead.get_make]
  exact .of_none rfl rfl

theorem leaveReset (ok : s.HeatBounded) : s.leaveReset.HeatBounded := by
  intro h
  simp only [State.head, State.leaveReset, PerHead.get_make]
  exact ok h

/-! ## Requests (R191) -/

theorem withHead (ok : s.HeatBounded) (n : Nat) {owner : Head → State → State × Answer}
    (acts : ∀ h, (owner h s).1.HeatBounded) : (Machine.withHead n owner s).1.HeatBounded := by
  rcases withHead_cases n owner s with ⟨h, _, q⟩ | ⟨_, q⟩
  · rw [q]; exact acts h
  · rw [q]; exact ok

theorem withStage (ok : s.HeatBounded) (n : Nat) {owner : Stage → State → State × Answer}
    (acts : ∀ g, (owner g s).1.HeatBounded) : (Machine.withStage n owner s).1.HeatBounded := by
  rcases withStage_cases n owner s with ⟨g, _, q⟩ | ⟨_, q⟩
  · rw [q]; exact acts g
  · rw [q]; exact ok

theorem reqSetCell (ok : s.HeatBounded) (items : List Item) : (Machine.reqSetCell items s).1.HeatBounded := by
  unfold Machine.reqSetCell
  split <;> exact ok

theorem enableHead (ok : s.HeatBounded) (h : Head) (enable : Option Nat) : (s.enableHead h enable).HeatBounded := by
  unfold State.enableHead
  split
  · unfold State.turnHeadOff
    split
    · exact (ok.flushHead h).modHead h fun _ bounded => bounded
    · exact ok
  · unfold State.turnHeadOn
    split
    · exact (ok.modHead h (f := fun r => { r with mode := .idle }) fun _ bounded => bounded).retry
    · exact ok
  · exact ok

theorem reqSetHead (ok : s.HeatBounded) (head : Nat) (items : List Item) :
    (Machine.reqSetHead head items s).1.HeatBounded := by
  refine ok.withHead head fun h => ?_
  dsimp only
  split
  · split
    · exact ok
    · refine (ok.modHead h ?_).enableHead h _
      exact fun _ bounded => bounded
  · exact ok

theorem reqSetStage (ok : s.HeatBounded) (stage : Nat) (items : List Item) :
    (Machine.reqSetStage stage items s).1.HeatBounded := by
  refine ok.withStage stage fun g => ?_
  split
  · split <;> exact ok
  · exact ok

theorem reqLoadFrame (ok : s.HeatBounded) (stage : Nat) (slots : List RawSlot) :
    (Machine.reqLoadFrame stage slots s).1.HeatBounded := by
  refine ok.withStage stage fun g => ?_
  split
  · exact ok
  · split
    · exact ok
    · exact ok.adoptNow g _

theorem reqSubmitJob (ok : s.HeatBounded) (head : Nat) (raw : RawJob) :
    (Machine.reqSubmitJob head raw s).1.HeatBounded := by
  refine ok.withHead head fun h => ?_
  split
  · exact ok
  · split
    · exact ok
    · exact retry (s := s.acceptJob h _) (ok.modHead h (f := fun r => { r with queue := r.queue ++ [_] })
        fun _ bounded => bounded)

theorem reqCancelJob (ok : s.HeatBounded) (head tag : Nat) : (Machine.reqCancelJob head tag s).1.HeatBounded := by
  refine ok.withHead head fun h => ?_
  split
  · exact ok
  · split
    · exact (ok.modHead h (f := fun r => { r with queue := r.queue.eraseP _ }) fun _ bounded => bounded).leaveJobs _
    · split
      · split
        · exact ok.takeCause h _
        · exact ok
      · exact ok

theorem reqFlushQueue (ok : s.HeatBounded) (head : Nat) : (Machine.reqFlushQueue head s).1.HeatBounded :=
  ok.withHead head fun h => ok.flushHead h

theorem reqStartHeads (ok : s.HeatBounded) (set : Byte) : (Machine.reqStartHeads set s).1.HeatBounded :=
  foldl_keeps _ ok fun _ h ok =>
    (ok.modJoint h (f := fun j => { j with startSeen := true }) fun _ bounded => bounded).startCheck h

theorem reqHold (ok : s.HeatBounded) : (Machine.reqHold s).1.HeatBounded := by
  unfold Machine.reqHold
  split <;> exact ok

theorem reqResume (ok : s.HeatBounded) : (Machine.reqResume s).1.HeatBounded := by
  unfold Machine.reqResume
  split
  · exact ok
  · split
    · exact ok
    · exact startChecks (s := s.setMode .run) ok _
  · exact ok

theorem reqPowerOn (ok : s.HeatBounded) (stage : Nat) : (Machine.reqPowerOn stage s).1.HeatBounded := by
  refine ok.withStage stage fun g => ?_
  split
  · split <;> exact ok
  all_goals exact ok

theorem powerDown (ok : s.HeatBounded) (g : Stage) : (s.powerDown g).1.HeatBounded := by
  unfold State.powerDown
  split
  · exact ok
  · exact ok.turnOff g

theorem reqPowerOff (ok : s.HeatBounded) (stage : Nat) : (Machine.reqPowerOff stage s).1.HeatBounded := by
  refine ok.withStage stage fun g => ?_
  split
  · exact ok
  · exact ok.powerDown g
  · exact ok.powerDown g
  · exact ok

theorem reqPower (ok : s.HeatBounded) (stage order : Nat) : (Machine.reqPower stage order s).1.HeatBounded := by
  unfold Machine.reqPower
  split
  · exact ok.reqPowerOff stage
  · exact ok.reqPowerOn stage
  · exact ok

theorem reqClearFaultHead (ok : s.HeatBounded) (head : Nat) : (Machine.reqClearFaultHead head s).1.HeatBounded := by
  refine ok.withHead head fun h => ?_
  have cleared : (s.modHead h HeadRec.clearFault).HeatBounded := ok.modHead h fun _ bounded => bounded
  split
  · exact ok
  · exact cleared.retry
  · exact cleared

theorem reqClearFaultStage (ok : s.HeatBounded) (stage : Nat) : (Machine.reqClearFaultStage stage s).1.HeatBounded := by
  refine ok.withStage stage fun g => ?_
  split <;> exact ok

theorem reqClearFaultDevice (ok : s.HeatBounded) : (Machine.reqClearFaultDevice s).1.HeatBounded := by
  unfold Machine.reqClearFaultDevice
  split
  · exact ok
  · exact ok
  · split <;> exact ok

theorem reqClearFault (ok : s.HeatBounded) (target number : Nat) :
    (Machine.reqClearFault target number s).1.HeatBounded := by
  unfold Machine.reqClearFault
  split
  · exact ok.reqClearFaultHead number
  · exact ok.reqClearFaultStage number
  · exact ok.reqClearFaultDevice
  · exact ok

theorem reqFetchResults (ok : s.HeatBounded) : (Machine.reqFetchResults s).1.HeatBounded := by
  unfold Machine.reqFetchResults
  dsimp only
  split
  · exact ok
  · exact retry (s := { s with report := s.report.dropResults }) ok

theorem reqReadRecipe (ok : s.HeatBounded) (entry : Nat) : (Machine.reqReadRecipe entry s).1.HeatBounded := by
  unfold Machine.reqReadRecipe
  split
  · exact ok
  · split <;> exact ok

theorem reqProgramRecipe (ok : s.HeatBounded) (entry : Nat) (record : List Byte) :
    (Machine.reqProgramRecipe entry record s).1.HeatBounded := by
  unfold Machine.reqProgramRecipe
  split
  · exact ok
  · split
    · exact ok
    · split
      · exact ok
      · split <;> exact ok

theorem reqEraseBank (ok : s.HeatBounded) (bank : Nat) : (Machine.reqEraseBank bank s).1.HeatBounded := by
  unfold Machine.reqEraseBank
  split
  · exact ok
  · split <;> exact ok

theorem reqSetProtect (ok : s.HeatBounded) (working master : Nat) :
    (Machine.reqSetProtect working master s).1.HeatBounded := by
  unfold Machine.reqSetProtect
  split
  · split <;> exact ok
  · exact ok

/-- Whatever its owner does with a request, every head stays in range. -/
theorem takeRequest (ok : s.HeatBounded) (q : Request) : (Machine.takeRequest q s).1.HeatBounded := by
  cases q with
  | identify => exact ok
  | getStatus => exact ok
  | reset => exact ok
  | setCell items => exact ok.reqSetCell items
  | setHead head items => exact ok.reqSetHead head items
  | setStage stage items => exact ok.reqSetStage stage items
  | loadFrame stage slots => exact ok.reqLoadFrame stage slots
  | submitJob head job => exact ok.reqSubmitJob head job
  | cancelJob head tag => exact ok.reqCancelJob head tag
  | flushQueue head => exact ok.reqFlushQueue head
  | startHeads heads => exact ok.reqStartHeads heads
  | hold => exact ok.reqHold
  | resume => exact ok.reqResume
  | power stage order => exact ok.reqPower stage order
  | clearFault target number => exact ok.reqClearFault target number
  | getHead head => exact ok.withHead head fun h => ok.modHead h fun _ bounded => bounded
  | getStage stage => exact ok.withStage stage fun _ => ok
  | getFrame stage => exact ok.withStage stage fun _ => ok
  | fetchResults => exact ok.reqFetchResults
  | fetchEvents => exact ok
  | readRecipe entry => exact ok.reqReadRecipe entry
  | programRecipe entry record => exact ok.reqProgramRecipe entry record
  | eraseBank bank => exact ok.reqEraseBank bank
  | getStore => exact ok
  | clearStore => exact ok
  | setProtect working master => exact ok.reqSetProtect working master

/-! ## The cell link (R187 to R189) -/

theorem takeFrame (ok : s.HeatBounded) (f : LinkFrame) : (s.takeFrame f).HeatBounded := by
  unfold State.takeFrame
  split
  · exact ok
  · split
    · exact ok
    · exact ok.takeRequest _

theorem process (ok : s.HeatBounded) (f : LinkFrame) : (s.process f).HeatBounded :=
  takeFrame (s := { s with link := { s.link with processing := some f } }) ok f

theorem acceptFrame (ok : s.HeatBounded) (f : LinkFrame) : (s.acceptFrame f).HeatBounded := by
  rcases s.acceptFrame_cases f with ⟨_, q⟩ | ⟨_, _, q⟩ | ⟨_, _, q⟩
  · rw [q]; exact ok.process f
  · rw [q]; exact ok
  · rw [q]; exact ok

theorem frameByte (ok : s.HeatBounded) (bytes : List Byte) : (s.frameByte bytes).HeatBounded := by
  unfold State.frameByte
  split
  · exact ok
  · exact ok
  · exact acceptFrame (s := s.hunt) ok _

theorem byteArrives (ok : s.HeatBounded) (b : Byte) (stopBit : Bool) : (s.byteArrives b stopBit).HeatBounded := by
  unfold State.byteArrives
  split
  · split <;> exact ok
  · split
    · exact ok.frameByte _
    · exact ok

theorem frameArrives (ok : s.HeatBounded) (f : LinkFrame) : (s.frameArrives f).HeatBounded := by
  unfold State.frameArrives
  split
  · exact acceptFrame (s := s.hunt) ok f
  · exact ok

theorem nextFrame (ok : s.HeatBounded) : s.nextFrame.HeatBounded := by
  unfold State.nextFrame
  split
  · exact process (s := { s with link := { s.link with waiting := none } }) ok _
  · exact ok

theorem replyGone (ok : s.HeatBounded) : s.replyGone.HeatBounded := by
  unfold State.replyGone
  split
  · exact ok
  · dsimp only
    split
    · exact of_resetPart _ _ _ _
    · split
      · exact nextFrame (s := { s with link := { s.link with replies := _ } }) ok
      · exact ok

/-! ## Commands -/

theorem atTime (ok : s.HeatBounded) {time : Nat} {f : State → State}
    (acts : ∀ u : State, u.HeatBounded → (f u).HeatBounded) : NextHeatBounded (Machine.atTime time s f) := by
  rcases atTime_cases time s f with ⟨_, q⟩ | ⟨_, q⟩
  · rw [q]; exact nextHeatBounded_next (acts (s.advance time) ok)
  · rw [q]; exact nextHeatBounded_next (s := s.advance time) ok

theorem atExpiry (ok : s.HeatBounded) {timer : Option Nat} {f : State → State}
    (acts : ∀ u : State, u.HeatBounded → (f u).HeatBounded) : NextHeatBounded (Machine.atExpiry timer s f) := by
  rcases atExpiry_cases timer s f with ⟨e, _, _, q⟩ | q
  · rw [q]; exact nextHeatBounded_next (acts (s.advance e) ok)
  · rw [q]; exact nextHeatBounded_next ok

theorem atStoreExpiry (ok : s.HeatBounded) {timer : Option Nat} {f : State → State}
    (acts : ∀ u : State, u.HeatBounded → (f u).HeatBounded) : NextHeatBounded (Machine.atStoreExpiry timer s f) := by
  rcases atStoreExpiry_cases timer s f with ⟨e, _, q⟩ | ⟨_, q⟩
  · rw [q]; exact nextHeatBounded_next (acts (s.advance e) ok)
  · rw [q]; exact nextHeatBounded_next ok

/-- A request row of the table takes its request as a frame does, but for the reply's mark that it answers one. -/
theorem request (ok : s.HeatBounded) {time : Nat} {k : Kind} {tag : Byte} (q : Request) :
    NextHeatBounded (Machine.atTime time s (respond k tag false (Machine.takeRequest q))) :=
  ok.atTime fun _ ok => ok.takeRequest q

theorem execSettleTimerExpiry (ok : s.HeatBounded) (g : Stage) :
    NextHeatBounded (Machine.execSettleTimerExpiry g s) := by
  unfold Machine.execSettleTimerExpiry
  exact ok.atExpiry fun u ok => settleExpired (s := u.chose) ok g _

theorem execCompletionTimerExpiry (ok : s.HeatBounded) (g : Stage) :
    NextHeatBounded (Machine.execCompletionTimerExpiry g s) := by
  unfold Machine.execCompletionTimerExpiry
  exact ok.atExpiry fun _ ok => ok.enterFault g _ _

theorem execSlotTimerExpiry (ok : s.HeatBounded) (g : Stage) :
    NextHeatBounded (Machine.execSlotTimerExpiry g s) := by
  unfold Machine.execSlotTimerExpiry
  refine ok.atExpiry fun _ ok => ?_
  split
  · exact ok.slotExpiry g _
  · exact ok

theorem execSplitTimerExpiry (ok : s.HeatBounded) (g : Stage) :
    NextHeatBounded (Machine.execSplitTimerExpiry g s) := by
  unfold Machine.execSplitTimerExpiry
  refine ok.atExpiry fun _ ok => ?_
  split
  · split
    · exact ok.splitExpiry g _ _
    · exact ok
  · exact ok

theorem execArmTimerExpiry (ok : s.HeatBounded) (h : Head) :
    NextHeatBounded (Machine.execArmTimerExpiry h s) := by
  unfold Machine.execArmTimerExpiry
  refine ok.atExpiry fun _ ok => (ok.modJoint h ?_).takeCause h _
  exact fun _ bounded => bounded

theorem execDurationTimerExpiry (ok : s.HeatBounded) (h : Head) :
    NextHeatBounded (Machine.execDurationTimerExpiry h s) := by
  unfold Machine.execDurationTimerExpiry
  refine ok.atExpiry fun _ ok => (ok.modJoint h ?_).durationExpired h
  exact fun _ bounded => bounded

theorem execTimeLimitExpiry (ok : s.HeatBounded) (h : Head) :
    NextHeatBounded (Machine.execTimeLimitExpiry h s) := by
  unfold Machine.execTimeLimitExpiry
  refine ok.atExpiry fun _ ok => (ok.modJoint h ?_).takeCause h _
  exact fun _ bounded => bounded

theorem execLostTimerExpiry (ok : s.HeatBounded) (h : Head) :
    NextHeatBounded (Machine.execLostTimerExpiry h s) := by
  unfold Machine.execLostTimerExpiry
  refine ok.atExpiry fun _ ok => (ok.modHead h ?_).takeCause h _
  exact fun _ bounded => bounded

theorem execPyrometerSample (ok : s.HeatBounded) (time : Nat) (h : Head) (intact : Bool) (m : Sample) :
    NextHeatBounded (Machine.execPyrometerSample time h intact m s) := by
  unfold Machine.execPyrometerSample
  exact ok.atTime fun _ ok => ok.sample h _

theorem execLineInputChange (ok : s.HeatBounded) (time : Nat) (i : LineInput) (level : Level) :
    NextHeatBounded (Machine.execLineInputChange time i level s) := by
  unfold Machine.execLineInputChange
  split
  · exact nextHeatBounded_next (setInput (s := s.advance time) ok i _)
  · exact nextHeatBounded_next (lineChange (s := s.advance time) ok i level)

theorem execInitialLevelTaken (ok : s.HeatBounded) (i : LineInput) :
    NextHeatBounded (Machine.execInitialLevelTaken i s) := by
  unfold Machine.execInitialLevelTaken
  refine ok.atExpiry fun _ ok => ?_
  dsimp only
  split
  · exact (ok.takeLevel i).estopTaken
  · exact ok.takeLevel i

theorem execEstopReleased (ok : s.HeatBounded) :
    NextHeatBounded (Machine.execEstopReleased s) := by
  unfold Machine.execEstopReleased
  exact ok.atExpiry fun _ ok => ok.takeChange _ _ fun _ ok => ok.raise _

theorem execMotionReleased (ok : s.HeatBounded) :
    NextHeatBounded (Machine.execMotionReleased s) := by
  unfold Machine.execMotionReleased
  exact ok.atExpiry fun _ ok => ok.takeChange _ _ fun _ ok => (ok.raise _).startChecks _

theorem execResetLineReleased (ok : s.HeatBounded) (time : Nat) :
    NextHeatBounded (Machine.execResetLineReleased time s) := by
  unfold Machine.execResetLineReleased
  refine nextHeatBounded_next ?_
  split
  · exact leaveReset (s := s.advance time) ok
  · exact ok

/-- Every command keeps every head in range. -/
theorem exec (ok : s.HeatBounded) (c : Instr) : NextHeatBounded (Machine.exec c s) := by
  cases c with
  | identify => exact ok.request .identify
  | getStatus => exact ok.request .getStatus
  | reset => exact ok.request .reset
  | setCell _ _ items => exact ok.request (.setCell items)
  | setHead _ _ head items => exact ok.request (.setHead head items)
  | setStage _ _ stage items => exact ok.request (.setStage stage items)
  | loadFrame _ _ stage slots => exact ok.request (.loadFrame stage slots)
  | submitJob _ _ head job => exact ok.request (.submitJob head job)
  | cancelJob _ _ head tag => exact ok.request (.cancelJob head tag)
  | flushQueue _ _ head => exact ok.request (.flushQueue head)
  | startHeads _ _ heads => exact ok.request (.startHeads heads)
  | hold => exact ok.request .hold
  | resume => exact ok.request .resume
  | powerOn _ _ stage => exact ok.request (.power stage 0x01)
  | powerOff _ _ stage => exact ok.request (.power stage 0x00)
  | clearFaultHead _ _ head => exact ok.request (.clearFault 0x00 head)
  | clearFaultStage _ _ stage => exact ok.request (.clearFault 0x01 stage)
  | clearFaultDevice => exact ok.request (.clearFault 0x02 0)
  | getHead _ _ head => exact ok.request (.getHead head)
  | getStage _ _ stage => exact ok.request (.getStage stage)
  | getFrame _ _ stage => exact ok.request (.getFrame stage)
  | fetchResults => exact ok.request .fetchResults
  | fetchEvents => exact ok.request .fetchEvents
  | readRecipe _ _ entry => exact ok.request (.readRecipe entry)
  | programRecipe _ _ entry record => exact ok.request (.programRecipe entry record)
  | eraseBank _ _ bank => exact ok.request (.eraseBank bank)
  | getStore => exact ok.request .getStore
  | clearStore => exact ok.request .clearStore
  | setProtect _ _ working master => exact ok.request (.setProtect working master)
  | frameReceived => exact ok.atTime fun _ ok => ok.frameArrives _
  | byteReceived => exact ok.atTime fun _ ok => ok.byteArrives _ _
  | gapTimerExpiry => exact ok.atExpiry fun _ ok => ok
  | replySent => exact ok.atTime fun _ ok => ok.replyGone
  | resetLine => exact ok.atTime fun _ _ => of_resetPart _ _ _ _
  | resetLineReleased time => exact ok.execResetLineReleased time
  | powerOnReset => exact nextHeatBounded_next (of_resetPart _ _ _ _)
  | busReport _ g => exact ok.atTime fun _ ok => ok.ifIntact _ (ok.busReported g _)
  | segmentReport _ g => exact ok.atTime fun u ok => ok.ifIntact _ (segmentReported (s := u.chose) ok g _ _ _)
  | tripReport _ g => exact ok.atTime fun _ ok => ok.ifIntact _ (ok.tripReported g _)
  | settleTimerExpiry g => exact ok.execSettleTimerExpiry g
  | completionTimerExpiry g => exact ok.execCompletionTimerExpiry g
  | slotTimerExpiry g => exact ok.execSlotTimerExpiry g
  | splitTimerExpiry g => exact ok.execSplitTimerExpiry g
  | armTimerExpiry h => exact ok.execArmTimerExpiry h
  | durationTimerExpiry h => exact ok.execDurationTimerExpiry h
  | timeLimitExpiry h => exact ok.execTimeLimitExpiry h
  | pyrometerSample time h intact m => exact ok.execPyrometerSample time h intact m
  | lostTimerExpiry h => exact ok.execLostTimerExpiry h
  | lineInputChange time i level => exact ok.execLineInputChange time i level
  | initialLevelTaken i => exact ok.execInitialLevelTaken i
  | estopAsserted => exact ok.atExpiry fun _ ok => ok.takeChange _ _ fun _ ok => ok.estopTaken
  | estopReleased => exact ok.execEstopReleased
  | motionAsserted => exact ok.atExpiry fun _ ok => ok.takeChange _ _ fun _ ok => ok.motionAssert
  | motionReleased => exact ok.execMotionReleased
  | clampFallingEdge h => exact ok.atExpiry fun _ ok => ok.takeChange _ _ fun _ ok => ok.clampFell h
  | clampRisingEdge h => exact ok.atExpiry fun _ ok => ok.takeChange _ _ fun _ ok => ok.clampRose h
  | flowFallingEdge h => exact ok.atExpiry fun _ ok => ok.takeChange _ _ fun _ ok => ok.flowFell h
  | flowRisingEdge h => exact ok.atExpiry fun _ ok => ok.takeChange _ _ fun _ ok => ok.flowRose h
  | keyChange => exact ok.atExpiry fun _ ok => ok.takeLevel .key
  | flowGraceTimerExpiry h => exact ok.atExpiry fun _ ok => ok.graceExpired h
  | programComplete => exact ok.atStoreExpiry fun _ ok => ok.programDone _
  | eraseComplete => exact ok.atStoreExpiry fun _ ok => ok.eraseDone _
  | suspendTimerExpiry => exact ok.atStoreExpiry fun _ ok => ok.suspendEnds

/-- Every step keeps every head in range; with an empty queue nothing changes. -/
theorem step (ok : s.HeatBounded) : NextHeatBounded (Machine.step s) := by
  unfold Machine.step
  split
  · next c rest _ => exact exec (s := { s with pending := rest }) ok c
  · exact nextHeatBounded_next ok

end State.HeatBounded

/-- Settles O8: the range is kept head by head; the energy account saturates (`Joint.count_heatBounded`), the filter
never steps past a sample in range (`filterTf_bounds`), and no other operation of a command can leave the range. -/
theorem energyAndTfStayInRange : Obligations.EnergyAndTfStayInRange := by
  intro s t ok next
  rw [← State.heatBounded_iff] at ok ⊢
  exact ok.step t next

end Sys2Proof.Machine
end

section
/-! The numbers of the heat decision (R49 to R63): what the rounding, the cap, the lower bound, the setpoint and the
ramp target are, each for all inputs, and then the decision record on a fresh and on a stale sample. -/

namespace Sys2Proof.Machine

/-! ## The numbers of a decision (R51, R55 to R57) -/

/-- The rounded request is the multiple of 10 W nearest to the raw one, a 5 rounded up (R55). -/
theorem roundPower_nearest (raw : Int) :
    roundPower raw % 10 = 0 ∧ roundPower raw - 5 ≤ raw ∧ raw < roundPower raw + 5 := by
  unfold roundPower
  omega

/-- The cap is the largest multiple of 10 W not above P_max and both limits (R56). -/
theorem powerCap_largest (pMax head stage : Nat) :
    powerCap pMax head stage % 10 = 0 ∧ powerCap pMax head stage ≤ pMax ∧ powerCap pMax head stage ≤ head ∧
      powerCap pMax head stage ≤ stage ∧
      (pMax < powerCap pMax head stage + 10 ∨ head < powerCap pMax head stage + 10 ∨
        stage < powerCap pMax head stage + 10) := by
  unfold powerCap
  omega

/-- The lower bound is the smallest multiple of 10 W not below P_min (R57). -/
theorem powerFloor_smallest (pMin : Nat) :
    powerFloor pMin % 10 = 0 ∧ pMin ≤ powerFloor pMin ∧ powerFloor pMin < pMin + 10 := by
  unfold powerFloor
  omega

/-- The setpoint is the request raised to the lower bound and then brought down to the cap (R57). -/
theorem clampPower_eq (request : Int) (lower cap : Nat) :
    clampPower request lower cap = (min (cap : Int) (max (lower : Int) request)).toNat := by
  unfold clampPower
  split
  · omega
  · split
    · omega
    · split <;> omega

/-- The setpoint of a rounded request between the bounds of R56 and R57. -/
theorem clampPower_bounds {request : Int} {lower cap : Nat} (request10 : request % 10 = 0) (lower10 : lower % 10 = 0)
    (cap10 : cap % 10 = 0) :
    clampPower request lower cap % 10 = 0 ∧ clampPower request lower cap ≤ cap ∧
      (lower ≤ cap → lower ≤ clampPower request lower cap) ∧ (cap < lower → clampPower request lower cap = cap) ∧
      ((lower : Int) ≤ request → request ≤ cap → (clampPower request lower cap : Int) = request) := by
  rw [clampPower_eq]
  omega

/-- The ramp target does not pass T_end (R51). -/
theorem rampTarget_le (tEnd tEntry rate t : Nat) : rampTarget tEnd tEntry rate t ≤ tEnd := Nat.min_le_left _ _

/-- The ramp target starts at T_entry (R51). -/
theorem le_rampTarget {tEnd tEntry : Nat} (below : tEntry ≤ tEnd) (rate t : Nat) :
    tEntry ≤ rampTarget tEnd tEntry rate t :=
  Nat.le_min.2 ⟨below, Nat.le_add_right _ _⟩

/-- The ramp target rises with time (R51). -/
theorem rampTarget_mono {t u : Nat} (earlier : t ≤ u) (tEnd tEntry rate : Nat) :
    rampTarget tEnd tEntry rate t ≤ rampTarget tEnd tEntry rate u := by
  have later : tEntry + rate * t / 1000 ≤ tEntry + rate * u / 1000 :=
    Nat.add_le_add_left (Nat.div_le_div_right (Nat.mul_le_mul_left _ earlier)) _
  unfold rampTarget
  omega

/-! ## The decision (R49, R53, R60) -/

/-- The head's decision is its joint's, in the joint's current phase. -/
theorem State.heatDecision_of {s : State} {h : Head} {j : Joint} {rec : Recipe} {n : Nat} {p : Phase}
    (active : (s.head h).joint = some j) (recipe : j.recipe = some rec) (phase : j.phase = some n)
    (at_ : rec.phases[n - 1]? = some p) (g : Stage) : s.heatDecision g h = j.heatDecision (s.heatInputs g h) p := by
  simp [State.heatDecision, Joint.currentPhase, active, recipe, phase, at_]

/-- A sample is stale exactly where none has been taken or its age is above the stale limit (R60). -/
theorem HeatInputs.stale_iff (x : HeatInputs) :
    x.stale = true ↔ x.age = none ∨ ∃ a, x.age = some a ∧ x.staleLimit < a := by
  cases age : x.age <;> simp [HeatInputs.stale, age]

section
variable {j : Joint} {x : HeatInputs} {p : Phase} {f : HeatFields}

/-- A decision on a fresh sample, with a target and Tf (R51 to R57). -/
theorem Joint.heatDecision_fresh (heat : p.heat? = some f) {a t tf : Nat} (age : x.age = some a)
    (fresh : a ≤ x.staleLimit) (target : j.target x.now p = some t) (present : x.tf = some tf) :
    j.heatDecision x p = some (j.freshDecision x f t tf) := by
  have notStale : x.stale = false := by simp [HeatInputs.stale, age, fresh]
  simp [Joint.heatDecision, heat, notStale, target, present]

/-- A decision on a stale sample (R60). -/
theorem Joint.heatDecision_stale (heat : p.heat? = some f) (stale : x.stale = true) :
    j.heatDecision x p = some (j.staleDecision x f) := by
  simp [Joint.heatDecision, heat, stale]

/-- Under STEP_DOWN a stale decision requests P_min (R60). -/
theorem Joint.staleDecision_stepDown (policy : x.stalePolicy = .stepDown) :
    j.staleDecision x f =
      { time := x.now - j.startTime.getD x.now, basis := .stepDown, age := x.age, target := none, error := none,
        cap := powerCap f.pMax x.headLimit x.stageLimit, lowerBound := powerFloor f.pMin,
        setpoint := clampPower (f.pMin : Nat) (powerFloor f.pMin) (powerCap f.pMax x.headLimit x.stageLimit),
        orderSent := false } := by
  simp [Joint.staleDecision, policy]

/-- Under HOLD_LAST a stale decision requests the last setpoint, or P_min where there is none (R60). -/
theorem Joint.staleDecision_holdLast (policy : x.stalePolicy = .holdLast) :
    j.staleDecision x f =
      { time := x.now - j.startTime.getD x.now, basis := .holdLast, age := x.age, target := none, error := none,
        cap := powerCap f.pMax x.headLimit x.stageLimit, lowerBound := powerFloor f.pMin,
        setpoint := clampPower (j.lastSetpoint.getD f.pMin : Nat) (powerFloor f.pMin)
          (powerCap f.pMax x.headLimit x.stageLimit),
        orderSent := false } := by
  cases last : j.lastSetpoint <;> simp [Joint.staleDecision, policy, last]

end

/-- Settles O60: the numbers by their lemmas above, and the decision by the sample's age and the stale policy. -/
theorem setpointBounds : Obligations.SetpointBounds := by
  refine ⟨roundPower_nearest, powerCap_largest, powerFloor_smallest, fun raw pMin pMax head stage => ?_,
    fun tEnd tEntry rate t u =>
      ⟨rampTarget_le .., fun below => le_rampTarget below rate t, fun earlier => rampTarget_mono earlier ..⟩,
    fun s g h j rec n p f active recipe phase at_ inHeat => ?_⟩
  · obtain ⟨floor10, aboveMin, _⟩ := powerFloor_smallest pMin
    obtain ⟨set10, underCap, aboveLower, capped, between⟩ :=
      clampPower_bounds (roundPower_nearest raw).1 floor10 (powerCap_largest pMax head stage).1
    exact ⟨set10, underCap, fun fits => Nat.le_trans aboveMin (aboveLower fits), capped, between⟩
  · have heat : p.heat? = some f := by
      rcases inHeat with ⟨rate, rfl⟩ | ⟨x, rfl⟩ <;> rfl
    rw [State.heatDecision_of active recipe phase at_]
    refine ⟨fun a t tf age fresh target present => ?_, fun old => ?_⟩
    · have target' : j.target s.now p = some t := by
        rcases inHeat with ⟨rate, rfl⟩ | ⟨x, rfl⟩ <;> exact target
      rw [Joint.heatDecision_fresh (x := s.heatInputs g h) heat age fresh target' present]
      simp only [Joint.freshDecision, clampPower_eq]
      rfl
    · rw [Joint.heatDecision_stale heat ((s.heatInputs g h).stale_iff.2 old)]
      refine ⟨fun policy => ?_, fun policy => ?_⟩
      · rw [Joint.staleDecision_stepDown (x := s.heatInputs g h) policy, clampPower_eq]
        rfl
      · rw [Joint.staleDecision_holdLast (x := s.heatInputs g h) policy, clampPower_eq]
        rfl

end Sys2Proof.Machine
end

section
/-! POWER and CLEAR_FAULT for a stage (R101, R103, R107): how an answered request's command ends, and what these requests
answer by the state of the stage. -/

namespace Sys2Proof.Machine

/-! ## The command of an answered request (R189) -/

section

variable {s t : State} {time : Nat} {data : List Byte}

/-- An accepted request's command answers the owner's state with the accept reply, marked where a value was clamped. -/
theorem request_accepted_marked (k : Kind) (tag : Byte) (owner : State → State × Answer) (run : s.inReset = false)
    {mark : Bool} (answer : owner (s.advance time) = (t.advance time, .accept mark data))
    (stays : k ≠ .reset := by decide) :
    atTime time s (respond k tag false owner) =
      .next (t.answered time ((if mark then markedReply else okReply) (BitVec.ofNat 8 k.code + 0x80) tag data)) := by
  rw [atTime_run run, respond_accept answer, decide_eq_false stays]
  cases mark <;> rfl

theorem request_accepted (k : Kind) (tag : Byte) (owner : State → State × Answer) (run : s.inReset = false)
    (answer : owner (s.advance time) = (t.advance time, .accept false data)) (stays : k ≠ .reset := by decide) :
    atTime time s (respond k tag false owner) =
      .next (t.answered time (okReply (BitVec.ofNat 8 k.code + 0x80) tag data)) :=
  request_accepted_marked k tag owner run answer stays

/-- A refused request's command answers the state as it was, at its time, with the refusal reply. -/
theorem request_refused (k : Kind) (tag : Byte) (owner : State → State × Answer) (run : s.inReset = false)
    {reason : Reason} (answer : owner (s.advance time) = (s.advance time, .refuse reason)) :
    atTime time s (respond k tag false owner) =
      .next (s.answered time (refusalReply (BitVec.ofNat 8 k.code) tag (BitVec.ofNat 8 reason.code))) := by
  rw [atTime_run run, respond_refuse answer]
  rfl

end

/-- A stage number that names a stage hands the request to that stage. -/
theorem withStage_named {n : Nat} {g : Stage} (named : Stage.ofNum? n = some g)
    (owner : Stage → State → State × Answer) (s : State) : withStage n owner s = owner g s := by
  simp [withStage, named]

/-- A stage number above 1 is refused with BAD_FIELD. -/
theorem withStage_above {n : Nat} (above : 1 < n) (owner : Stage → State → State × Answer) (s : State) :
    withStage n owner s = (s, .refuse .badField) := by
  obtain ⟨m, rfl⟩ : ∃ m, n = m + 2 := ⟨n - 2, by omega⟩
  rfl

/-! ## POWER on (R101) -/

/-- The reply of POWER carries the code of the stage's state. -/
theorem State.powerAnswer_of {s : State} {g : Stage} {m : StageMode} (mode : (s.stage g).mode = m) :
    s.powerAnswer g = (s, .accept false [BitVec.ofNat 8 m.code]) := by
  subst mode
  have fits : (s.stage g).mode.code < 256 := by cases (s.stage g).mode <;> decide
  rw [State.powerAnswer, byteField_fits fits]

/-- What a stage holds once it has been powered. -/
def StageRec.poweredUp (r : StageRec) (now : Nat) : StageRec :=
  { r with mode := .settling, busReady := false, settleTimer := some (now + r.settleTime), orders := r.orders ++ [.busOn] }

theorem State.powerUp_eq (s : State) (g : Stage) : s.powerUp g = s.setStage g ((s.stage g).poweredUp s.now) := by
  simp [State.powerUp, State.send, State.modStage, StageRec.poweredUp]

section

variable {s : State} {n : Nat} {g : Stage}

theorem reqPowerOn_off_permitted (named : Stage.ofNum? n = some g) (mode : (s.stage g).mode = .off)
    (released : s.cell.estop.taken = some .high) :
    reqPowerOn n s = (s.setStage g ((s.stage g).poweredUp s.now), .accept false [0x02]) := by
  have settling : ((s.powerUp g).stage g).mode = .settling := by simp [State.powerUp_eq, StageRec.poweredUp]
  rw [reqPowerOn, withStage_named named, ← State.powerUp_eq]
  simp only [mode, Input.permits, released, decide_true, if_true, State.powerAnswer_of settling]
  rfl

theorem reqPowerOn_off_forbidden (named : Stage.ofNum? n = some g) (mode : (s.stage g).mode = .off)
    (forbids : s.cell.estop.taken ≠ some .high) : reqPowerOn n s = (s, .refuse .interlock) := by
  rw [reqPowerOn, withStage_named named]
  simp [mode, Input.permits, forbids]

/-- A stage that is on already stays as it is. -/
theorem reqPowerOn_on (named : Stage.ofNum? n = some g) {m : StageMode} (mode : (s.stage g).mode = m)
    (on : m = .settling ∨ m = .ready) : reqPowerOn n s = (s, .accept false [BitVec.ofNat 8 m.code]) := by
  rw [reqPowerOn, withStage_named named]
  rcases on with rfl | rfl <;> simp only [mode, State.powerAnswer_of mode]

theorem reqPowerOn_fault (named : Stage.ofNum? n = some g) (mode : (s.stage g).mode = .fault) :
    reqPowerOn n s = (s, .refuse .busy) := by
  rw [reqPowerOn, withStage_named named]
  simp only [mode]

end

/-! ## A stage turned off, and POWER off (R103) -/

/-- What a SETTLING or READY stage holds once it has been turned off, its frame aside. -/
def StageRec.turnedOff (r : StageRec) : StageRec :=
  { r with mode := .off, settleTimer := none, segment := none, completionTimer := none, orders := r.orders ++ [.busOff] }

section

variable {s : State} {n : Nat} {g : Stage}

/-- A stage is turned off, and where it was READY its frame stops. -/
theorem State.turnOff_eq (s : State) (g : Stage) :
    s.turnOff g = (s.setStage g (s.stage g).turnedOff).stopIfReady g (s.stage g).mode := by
  simp [State.turnOff, State.send, State.modStage, StageRec.turnedOff]

theorem State.turnOff_settling (mode : (s.stage g).mode = .settling) :
    s.turnOff g = s.setStage g (s.stage g).turnedOff := by
  simp [State.turnOff_eq, State.stopIfReady, mode]

/-- A READY stage without a pending frame keeps its active one. -/
theorem State.turnOff_ready (mode : (s.stage g).mode = .ready) (pending : (s.stage g).pendingFrame = none) :
    s.turnOff g = s.setStage g { (s.stage g).turnedOff with running := none, deferred := false } := by
  simp [State.turnOff_eq, State.stopIfReady, mode, State.stopFrame, State.adoptPending, State.modStage,
    StageRec.turnedOff, pending]

/-- A READY stage adopts its pending frame as it is turned off (R95). -/
theorem State.turnOff_ready_adopts (mode : (s.stage g).mode = .ready) {f : List Slot}
    (pending : (s.stage g).pendingFrame = some f) :
    s.turnOff g = (s.setStage g { (s.stage g).turnedOff with
      running := none, deferred := false, active := some f, pendingFrame := none }).raise (.frameAdopted g) := by
  simp [State.turnOff_eq, State.stopIfReady, mode, State.stopFrame, State.adoptPending, State.modStage,
    StageRec.turnedOff, pending]

/-- A stage that has been turned off is OFF. -/
theorem State.turnOff_mode (s : State) (g : Stage) : ((s.turnOff g).stage g).mode = .off := by
  rw [State.turnOff_eq]
  rcases (s.setStage g (s.stage g).turnedOff).stopIfReady_cases g (s.stage g).mode with ⟨_, q⟩ | ⟨_, q⟩
  · rcases ((s.setStage g (s.stage g).turnedOff).setStage g _).adoptPending_cases g with ⟨f, _, a⟩ | ⟨_, a⟩ <;>
      rw [q, a] <;> simp [StageRec.turnedOff]
  · rw [q, State.stage_setStage_same]; rfl

theorem HeadMode.started_iff (m : HeadMode) : m.started = true ↔ m ∈ [HeadMode.tuning, .heating, .stopping] := by
  cases m <;> decide

theorem State.mem_members (s : State) (g : Stage) (h : Head) : h ∈ s.members g ↔ (s.head h).settings.stage = g := by
  simp only [State.members, List.mem_filter, Head.mem_all, true_and, decide_eq_true_eq]
  rfl

theorem State.memberStarted_iff (s : State) (g : Stage) : s.memberStarted g = true ↔
    ∃ h, (s.head h).settings.stage = g ∧ (s.head h).mode ∈ [HeadMode.tuning, .heating, .stopping] := by
  simp only [State.memberStarted, List.any_eq_true, State.mem_members, HeadMode.started_iff]

/-- A stage that is off already stays as it is. -/
theorem reqPowerOff_off (named : Stage.ofNum? n = some g) {m : StageMode} (mode : (s.stage g).mode = m)
    (off : m = .off ∨ m = .fault) : reqPowerOff n s = (s, .accept false [BitVec.ofNat 8 m.code]) := by
  rw [reqPowerOff, withStage_named named]
  rcases off with rfl | rfl <;> simp only [mode, State.powerAnswer_of mode]

/-- POWER off of a stage that is on: refused under a started member, and otherwise the stage is turned off. -/
theorem reqPowerOff_on (named : Stage.ofNum? n = some g)
    (on : (s.stage g).mode = .settling ∨ (s.stage g).mode = .ready) :
    reqPowerOff n s =
      if s.memberStarted g then (s, .refuse .busy) else (s.turnOff g, .accept false [0x01]) := by
  have down : s.powerDown g =
      if s.memberStarted g then (s, .refuse .busy) else (s.turnOff g, .accept false [0x01]) := by
    rw [State.powerDown, State.powerAnswer_of (s.turnOff_mode g)]; rfl
  rw [reqPowerOff, withStage_named named, ← down]
  rcases on with mode | mode <;> simp only [mode]

/-- POWER off of a stage that is on is refused where a member has a started joint. -/
theorem reqPowerOff_started (named : Stage.ofNum? n = some g)
    (on : (s.stage g).mode = .settling ∨ (s.stage g).mode = .ready)
    (started : ∃ h, (s.head h).settings.stage = g ∧ (s.head h).mode ∈ [HeadMode.tuning, .heating, .stopping]) :
    reqPowerOff n s = (s, .refuse .busy) := by
  rw [reqPowerOff_on named on, if_pos ((s.memberStarted_iff g).2 started)]

/-- POWER off of a stage that is on turns it off where no member has a started joint. -/
theorem reqPowerOff_idle (named : Stage.ofNum? n = some g)
    (on : (s.stage g).mode = .settling ∨ (s.stage g).mode = .ready)
    (idle : ∀ h, (s.head h).settings.stage = g → (s.head h).mode ∉ [HeadMode.tuning, .heating, .stopping]) :
    reqPowerOff n s = (s.turnOff g, .accept false [0x01]) := by
  have unstarted : ¬ s.memberStarted g = true := by
    rw [State.memberStarted_iff]
    rintro ⟨h, member, started⟩
    exact idle h member started
  rw [reqPowerOff_on named on, if_neg unstarted]

end

/-! ## CLEAR_FAULT for a stage (R107) -/

section

variable {s : State} {n : Nat} {g : Stage}

theorem reqClearFaultStage_fault (named : Stage.ofNum? n = some g) (mode : (s.stage g).mode = .fault) :
    reqClearFaultStage n s = (s.setStage g
      { s.stage g with mode := .off, fault := (s.stage g).fault.map fun c => { c with cleared := true } },
      .accept false []) := by
  rw [reqClearFaultStage, withStage_named named]
  simp only [mode, State.modStage_eq]

theorem reqClearFaultStage_other (named : Stage.ofNum? n = some g) (mode : (s.stage g).mode ≠ .fault) :
    reqClearFaultStage n s = (s, .accept false []) := by
  rw [reqClearFaultStage, withStage_named named]
  cases m : (s.stage g).mode with
  | fault => exact absurd m mode
  | off => rfl
  | settling => rfl
  | ready => rfl

end

/-- Settles O39: each clause is the answer of one request in one state of the stage, at the command's time. -/
theorem powerAndClearStage : Obligations.PowerAndClearStage := by
  intro time tag stage g s run named r now unchanged refused off
  let u := s.advance time
  refine ⟨fun mode released => ?_, fun mode forbids => ?_, fun mode => ?_, fun mode => ?_, fun mode => ?_, fun mode => ?_,
    fun mode => ?_, fun on started => ?_, fun idle => ?_, fun mode => ?_, fun mode => ?_⟩
  · exact request_accepted .power tag (reqPowerOn stage) run (reqPowerOn_off_permitted (s := u) named mode released)
  · exact request_refused .power tag (reqPowerOn stage) run (reqPowerOn_off_forbidden (s := u) named mode forbids)
  · exact request_accepted .power tag (reqPowerOn stage) run (reqPowerOn_on (s := u) named mode (.inl rfl))
  · exact request_accepted .power tag (reqPowerOn stage) run (reqPowerOn_on (s := u) named mode (.inr rfl))
  · exact request_refused .power tag (reqPowerOn stage) run (reqPowerOn_fault (s := u) named mode)
  · exact request_accepted .power tag (reqPowerOff stage) run (reqPowerOff_off (s := u) named mode (.inl rfl))
  · exact request_accepted .power tag (reqPowerOff stage) run (reqPowerOff_off (s := u) named mode (.inr rfl))
  · exact request_refused .power tag (reqPowerOff stage) run (reqPowerOff_started (s := u) named on started)
  · have turnsOff {t : State} (on : r.mode = .settling ∨ r.mode = .ready) (turned : u.turnOff g = t.advance time) :
        exec (.powerOff time tag stage) s = .next (t.answered time (okReply 0x8E tag [0x01])) :=
      request_accepted .power tag (reqPowerOff stage) run ((reqPowerOff_idle (s := u) named on idle).trans (by rw [turned]))
    refine ⟨fun mode => ?_, fun mode pending => ?_, fun f mode pending => ?_⟩
    · exact turnsOff (.inl mode) (State.turnOff_settling (s := u) mode)
    · exact turnsOff (.inr mode) (State.turnOff_ready (s := u) mode pending)
    · exact turnsOff (.inr mode) (State.turnOff_ready_adopts (s := u) mode pending)
  · exact request_accepted .clearFault tag (reqClearFaultStage stage) run (reqClearFaultStage_fault (s := u) named mode)
  · exact request_accepted .clearFault tag (reqClearFaultStage stage) run (reqClearFaultStage_other (s := u) named mode)

end Sys2Proof.Machine
end

section
/-! The settings requests of the cell and of a stage (R117, R165, R191): what a request takes from its items, and the answer
of SET_CELL and SET_STAGE. -/

namespace Sys2Proof.Machine

/-! ## The items of a settings request (R190, R191) -/

/-- No item is named twice exactly where the codes are distinct. -/
theorem itemsDistinct_iff (items : List Item) : itemsDistinct items = true ↔ (items.map Item.code).Nodup := by
  induction items with
  | nil => simp [itemsDistinct]
  | cons i rest ih => simp [itemsDistinct, ih]

/-- A carried value stands in an item of its code. -/
theorem itemValue_mem {items : List Item} {code v : Nat} (carried : itemValue items code = some v) :
    (⟨code, v⟩ : Item) ∈ items := by
  obtain ⟨i, found, rfl⟩ := Option.map_eq_some_iff.1 carried
  have named : i.code = code := by simpa using List.find?_some found
  subst named
  exact List.mem_of_find?_eq_some found

/-- The items taken carry for each code what is taken for the value the items carry. -/
theorem itemValue_takenItems (taken : Nat → Nat → Nat) (items : List Item) (code : Nat) :
    itemValue (takenItems taken items) code = (itemValue items code).map (taken code) := by
  induction items with
  | nil => rfl
  | cons i rest ih =>
    by_cases named : i.code = code
    · simp [itemValue, takenItems, named]
    · simpa [itemValue, takenItems, named] using ih

/-- A setting becomes what is taken for the value the items carry, and stays where they carry none. -/
theorem takenItems_getD (taken : Nat → Nat → Nat) (items : List Item) (code old : Nat) :
    (itemValue (takenItems taken items) code).getD old = match itemValue items code with
      | some v => taken code v
      | none => old := by
  rw [itemValue_takenItems]
  cases itemValue items code <;> rfl

/-- No value is clamped exactly where every item is taken as it is. -/
theorem itemsClamped_eq_false (taken : Nat → Nat → Nat) (items : List Item) :
    itemsClamped taken items = false ↔ ∀ i ∈ items, taken i.code i.value = i.value := by
  simp [itemsClamped]

/-! ## SET_CELL (R165) -/

theorem MotionPolicy.ofCode?_of {v : Nat} (choice : v = 1 ∨ v = 2) :
    MotionPolicy.ofCode? v = some (if v = 2 then .flush else .keep) := by
  rcases choice with rfl | rfl <;> rfl

theorem flagOfCode?_of {v : Nat} (choice : v = 0 ∨ v = 1) : flagOfCode? v = some (decide (v = 1)) := by
  rcases choice with rfl | rfl <;> rfl

theorem MotionPolicy.code_eq (p : MotionPolicy) : p.code = if p = .flush then 2 else 1 := by cases p <;> rfl

theorem MotionPolicy.ofCode?_isSome (v : Nat) : (MotionPolicy.ofCode? v).isSome = true ↔ v = 1 ∨ v = 2 := by
  unfold MotionPolicy.ofCode?
  split <;> simp_all

theorem flagOfCode?_isSome (v : Nat) : (flagOfCode? v).isSome = true ↔ v = 0 ∨ v = 1 := by
  unfold flagOfCode?
  split <;> simp_all

/-- The items SET_CELL takes: the motion policy, KEEP or FLUSH, and the erase suspend enable. -/
theorem cellItemOk_iff (i : Item) : cellItemOk i = true ↔
    (i.code = 1 ∧ (i.value = 1 ∨ i.value = 2)) ∨ (i.code = 2 ∧ (i.value = 0 ∨ i.value = 1)) := by
  unfold cellItemOk
  split
  · next one => simp [one, MotionPolicy.ofCode?_isSome]
  · next two => simp [two, flagOfCode?_isSome]
  · next other other' => simp [show i.code ≠ 1 from other, show i.code ≠ 2 from other']

/-- A value carried for the motion policy is one of its choices. -/
theorem cellItem_policy {items : List Item} (ok : items.all cellItemOk = true) {v : Nat}
    (carried : itemValue items 1 = some v) : v = 1 ∨ v = 2 := by
  simpa using (cellItemOk_iff _).1 (List.all_eq_true.1 ok _ (itemValue_mem carried))

/-- A value carried for the erase suspend enable is one of its choices. -/
theorem cellItem_suspend {items : List Item} (ok : items.all cellItemOk = true) {v : Nat}
    (carried : itemValue items 2 = some v) : v = 0 ∨ v = 1 := by
  simpa using (cellItemOk_iff _).1 (List.all_eq_true.1 ok _ (itemValue_mem carried))

/-- Each option of the cell becomes what its item carries, and one without an item stays. -/
theorem CellRec.setItems_eq (c : CellRec) {items : List Item} (ok : items.all cellItemOk = true) :
    c.setItems items = { c with
      motionPolicy := match itemValue items 1 with
        | some v => if v = 2 then .flush else .keep
        | none => c.motionPolicy
      eraseSuspend := match itemValue items 2 with
        | some v => decide (v = 1)
        | none => c.eraseSuspend } := by
  have policy : ((itemValue items 1).bind MotionPolicy.ofCode?).getD c.motionPolicy =
      match itemValue items 1 with
        | some v => if v = 2 then .flush else .keep
        | none => c.motionPolicy := by
    cases carried : itemValue items 1 with
    | none => rfl
    | some v => simp [MotionPolicy.ofCode?_of (cellItem_policy ok carried)]
  have suspend : ((itemValue items 2).bind flagOfCode?).getD c.eraseSuspend =
      match itemValue items 2 with
        | some v => decide (v = 1)
        | none => c.eraseSuspend := by
    cases carried : itemValue items 2 with
    | none => rfl
    | some v => simp [flagOfCode?_of (cellItem_suspend ok carried)]
  rw [CellRec.setItems, policy, suspend]

/-- The reply of SET_CELL carries both options as two-byte values (R193). -/
theorem settingsBytes_cell (c : CellRec) : settingsBytes (cellSettings c) =
    numField 2 (if c.motionPolicy = .flush then 2 else 1) ++ numField 2 (if c.eraseSuspend then 1 else 0) := by
  simp [settingsBytes, cellSettings, MotionPolicy.code_eq, flagCode]

theorem reqSetCell_ok {items : List Item} (ok : items.all cellItemOk = true) (once : (items.map Item.code).Nodup)
    (s : State) : reqSetCell items s =
      ({ s with cell := s.cell.setItems items }, .accept false (settingsBytes (cellSettings (s.cell.setItems items)))) := by
  simp [reqSetCell, ok, (itemsDistinct_iff items).2 once]

theorem reqSetCell_bad {items : List Item}
    (bad : (∃ i ∈ items, ¬ cellItemOk i = true) ∨ ¬ (items.map Item.code).Nodup) (s : State) : reqSetCell items s = (s, .refuse .badField) := by
  have unsound : ¬ (items.all cellItemOk && itemsDistinct items) = true := by
    rw [Bool.and_eq_true, List.all_eq_true, itemsDistinct_iff]
    rintro ⟨ok, once⟩
    rcases bad with ⟨i, inside, wrong⟩ | twice
    · exact wrong (ok i inside)
    · exact twice once
  rw [reqSetCell, if_neg unsound]

/-! ## SET_STAGE (R117) -/

theorem stageItemOk_iff (i : Item) : stageItemOk i = true ↔ i.code = 1 ∨ i.code = 2 ∨ i.code = 3 := by
  unfold stageItemOk
  split <;> simp_all

/-- The table of R117, by code. -/
theorem stageTaken_of {code : Nat} (known : code = 1 ∨ code = 2 ∨ code = 3) (v : Nat) : stageTaken code v =
    if code = 1 then max 1000 (min v 15000) else if code = 2 then max 0 (min v 15) else max 100 (min v 5000) := by
  rcases known with rfl | rfl | rfl <;> rfl

/-- The stage settings after the items: each becomes its item's value brought into range, and one without an item stays. -/
theorem StageRec.setItems_taken (r : StageRec) (items : List Item) : r.setItems (takenItems stageTaken items) = { r with
    powerLimit := match itemValue items 1 with
      | some v => max 1000 (min v 15000)
      | none => r.powerLimit
    gap := match itemValue items 2 with
      | some v => max 0 (min v 15)
      | none => r.gap
    settleTime := match itemValue items 3 with
      | some v => max 100 (min v 5000)
      | none => r.settleTime } := by
  rw [StageRec.setItems, takenItems_getD, takenItems_getD, takenItems_getD]
  rfl

/-- The reply of SET_STAGE carries all three settings as two-byte values (R193). -/
theorem settingsBytes_stage (r : StageRec) : settingsBytes (stageSettings r) =
    numField 2 r.powerLimit ++ numField 2 r.gap ++ numField 2 r.settleTime := by
  simp [settingsBytes, stageSettings]

section

variable {items : List Item} {n : Nat} {g : Stage} {s : State}

/-- Sound items are judged by the state of the stage alone. -/
theorem reqSetStage_sound (ok : ∀ i ∈ items, i.code = 1 ∨ i.code = 2 ∨ i.code = 3)
    (once : (items.map Item.code).Nodup) (named : Stage.ofNum? n = some g) :
    reqSetStage n items s =
      if (s.stage g).mode = .off ∨ (s.stage g).mode = .fault then
        (s.setStage g ((s.stage g).setItems (takenItems stageTaken items)),
          .accept (itemsClamped stageTaken items)
            (settingsBytes (stageSettings ((s.stage g).setItems (takenItems stageTaken items)))))
      else (s, .refuse .busy) := by
  have known : items.all stageItemOk = true := List.all_eq_true.2 fun i inside => (stageItemOk_iff i).2 (ok i inside)
  rw [reqSetStage, withStage_named named]
  simp [known, (itemsDistinct_iff items).2 once]

theorem reqSetStage_off (ok : ∀ i ∈ items, i.code = 1 ∨ i.code = 2 ∨ i.code = 3)
    (once : (items.map Item.code).Nodup) (named : Stage.ofNum? n = some g)
    (off : (s.stage g).mode = .off ∨ (s.stage g).mode = .fault) :
    reqSetStage n items s =
      (s.setStage g ((s.stage g).setItems (takenItems stageTaken items)),
        .accept (itemsClamped stageTaken items)
          (settingsBytes (stageSettings ((s.stage g).setItems (takenItems stageTaken items))))) := by
  rw [reqSetStage_sound ok once named, if_pos off]

theorem reqSetStage_busy (ok : ∀ i ∈ items, i.code = 1 ∨ i.code = 2 ∨ i.code = 3)
    (once : (items.map Item.code).Nodup) (named : Stage.ofNum? n = some g)
    (on : (s.stage g).mode = .settling ∨ (s.stage g).mode = .ready) :
    reqSetStage n items s = (s, .refuse .busy) := by
  have notOff : ¬ ((s.stage g).mode = .off ∨ (s.stage g).mode = .fault) := by
    rcases on with mode | mode <;> simp [mode]
  rw [reqSetStage_sound ok once named, if_neg notOff]

theorem reqSetStage_bad
    (bad : ¬ (∀ i ∈ items, i.code = 1 ∨ i.code = 2 ∨ i.code = 3) ∨ ¬ (items.map Item.code).Nodup)
    (named : Stage.ofNum? n = some g) : reqSetStage n items s = (s, .refuse .badField) := by
  have unsound : ¬ (items.all stageItemOk && itemsDistinct items) = true := by
    rw [Bool.and_eq_true, List.all_eq_true, itemsDistinct_iff]
    rintro ⟨ok, once⟩
    rcases bad with unknown | twice
    · exact unknown fun i inside => (stageItemOk_iff i).1 (ok i inside)
    · exact twice once
  rw [reqSetStage, withStage_named named, if_neg unsound]

end

/-- Settles O26: what is taken is said by `CellRec.setItems_eq` and `StageRec.setItems_taken`, and the mark of SET_STAGE by
the items that are not taken as they are. -/
theorem setCellAndStageTakeSettings : Obligations.SetCellAndStageTakeSettings := by
  intro time tag items s run once carried cellItem
  refine ⟨⟨fun ⟨choices, distinct⟩ => ?_, fun bad => ?_⟩, fun stage g named => ?_, fun stage above => ?_⟩
  · have ok : items.all cellItemOk = true :=
      List.all_eq_true.2 fun i inside => (cellItemOk_iff i).2 (choices i inside)
    have answer := reqSetCell_ok ok distinct (s.advance time)
    rw [settingsBytes_cell, CellRec.setItems_eq _ ok] at answer
    exact request_accepted .setCell tag (reqSetCell items) run answer
  · refine request_refused .setCell tag (reqSetCell items) run (reqSetCell_bad ?_ _)
    simpa only [cellItemOk_iff] using bad
  · intro r known clamp taken p q w
    let u := s.advance time
    refine ⟨fun ok distinct off => ?_, fun ok distinct on => ?_, fun bad => ?_⟩
    · have unclamped : (∀ i ∈ items, clamp i.code i.value = i.value) ↔ itemsClamped stageTaken items = false := by
        rw [itemsClamped_eq_false]
        exact forall₂_congr fun i inside => by rw [stageTaken_of (ok i inside)]
      have mark : (if ∀ i ∈ items, clamp i.code i.value = i.value then okReply else markedReply) =
          if itemsClamped stageTaken items then markedReply else okReply := by
        cases marked : itemsClamped stageTaken items <;> simp [unclamped, marked]
      have answer := reqSetStage_off (s := u) ok distinct named off
      rw [settingsBytes_stage, StageRec.setItems_taken] at answer
      rw [mark]
      exact request_accepted_marked .setStage tag (reqSetStage stage items) run answer
    · exact request_refused .setStage tag (reqSetStage stage items) run (reqSetStage_busy (s := u) ok distinct named on)
    · exact request_refused .setStage tag (reqSetStage stage items) run (reqSetStage_bad bad named)
  · exact request_refused .setStage tag (reqSetStage stage items) run (withStage_above above _ _)

end Sys2Proof.Machine
end

section
/-! The interlock record of the cell (R151) over every step. Away from the interlock block, SET_CELL and the resets no
operation touches the record, which one lemma per operation says (`State.<operation>_cell`); what the interlock block does
to it is said behind them, and every command keeps INTERLOCKED and the causes together. -/

namespace Sys2Proof.Machine

/-! ## The job manager and the shared operations leave the cell -/

@[simp] theorem State.chose_cell (s : State) : s.chose.cell = s.cell := rfl
@[simp] theorem State.modHead_cell (s : State) (h : Head) (f : HeadRec → HeadRec) : (s.modHead h f).cell = s.cell := rfl
@[simp] theorem State.modJoint_cell (s : State) (h : Head) (f : Joint → Joint) : (s.modJoint h f).cell = s.cell := rfl
@[simp] theorem State.modStage_cell (s : State) (g : Stage) (f : StageRec → StageRec) :
    (s.modStage g f).cell = s.cell := rfl
@[simp] theorem State.send_cell (s : State) (g : Stage) (o : StageOrder) : (s.send g o).cell = s.cell := rfl
@[simp] theorem State.pushReply_cell (s : State) (r : Reply) : (s.pushReply r).cell = s.cell := rfl

/-- Acts that leave the cell leave it when the heads act in turn. -/
theorem State.eachHead_cell (s : State) (test : State → Head → Bool) {act : Head → State → State}
    (same : ∀ h u, (act h u).cell = u.cell) : (s.eachHead test act).cell = s.cell :=
  State.eachHead_keeps (P := fun u => u.cell = s.cell) rfl fun h u kept _ => (same h u).trans kept

/-- Acts that leave the cell leave it when they are folded. -/
theorem foldl_cell {α : Type} (xs : List α) (s : State) {act : State → α → State}
    (same : ∀ u x, (act u x).cell = u.cell) : (xs.foldl act s).cell = s.cell :=
  foldl_keeps (P := fun u => u.cell = s.cell) xs rfl fun u x kept => (same u x).trans kept

@[simp] theorem State.endJoint_cell (s : State) (h : Head) (o : JointOutcome) : (s.endJoint h o).cell = s.cell :=
  (s.endJoint_around h o).cell

@[simp] theorem State.retry_cell (s : State) : s.retry.cell = s.cell := s.retry_around.cell

@[simp] theorem State.startChecks_cell (s : State) (hs : List Head) : (s.startChecks hs).cell = s.cell :=
  (s.startChecks_around hs).cell

@[simp] theorem State.startCheck_cell (s : State) (h : Head) : (s.startCheck h).cell = s.cell :=
  s.startChecks_cell [h]

@[simp] theorem State.serveAll_cell (s : State) : s.serveAll.cell = s.cell := s.serveAll_around.cell

@[simp] theorem State.endRecorded_cell (s : State) (h : Head) : (s.endRecorded h).cell = s.cell :=
  ((SameAround.keepsJobMoves s).endRecorded (.refl s) h).cell

@[simp] theorem State.stopJoint_cell (s : State) (h : Head) : (s.stopJoint h).cell = s.cell := rfl

@[simp] theorem State.takeCause_cell (s : State) (h : Head) (o : JointOutcome) : (s.takeCause h o).cell = s.cell := by
  unfold State.takeCause
  split
  · split
    · split
      · exact s.endRecorded_cell h
      · rfl
    · dsimp only
      split
      · exact State.endJoint_cell _ h o
      · rfl
  · rfl

@[simp] theorem State.takeCause?_cell (s : State) (h : Head) (o : Option JointOutcome) :
    (s.takeCause? h o).cell = s.cell := by
  cases o with
  | none => rfl
  | some o => exact s.takeCause_cell h o

@[simp] theorem State.leaveJobs_cell (s : State) (jobs : List Job) : (s.leaveJobs jobs).cell = s.cell := by
  obtain ⟨_, _, only, _⟩ := s.leaveJobs_only jobs
  rw [only]

@[simp] theorem State.flushHead_cell (s : State) (h : Head) : (s.flushHead h).cell = s.cell := by
  simp [State.flushHead]

/-! ## The scheduler and the stage interface leave the cell -/

@[simp] theorem State.decideSlot_cell (s : State) (g : Stage) : (s.decideSlot g).cell = s.cell := by
  obtain ⟨r, only | ⟨h, d, sent, only⟩, _⟩ := s.decideSlot_only g <;> rw [only] <;> rfl

@[simp] theorem State.decideOrDefer_cell (s : State) (g : Stage) : (s.decideOrDefer g).cell = s.cell := by
  unfold State.decideOrDefer
  split <;> simp

@[simp] theorem State.decideDeferred_cell (s : State) (g : Stage) : (s.decideDeferred g).cell = s.cell := by
  unfold State.decideDeferred
  split <;> simp

@[simp] theorem State.dropOvertaken_cell (s : State) (g : Stage) : (s.dropOvertaken g).cell = s.cell := by
  unfold State.dropOvertaken
  split <;> rfl

@[simp] theorem State.adoptPending_cell (s : State) (g : Stage) : (s.adoptPending g).cell = s.cell := by
  rcases s.adoptPending_cases g with ⟨_, _, q⟩ | ⟨_, q⟩ <;> simp [q]

@[simp] theorem State.startSlot_cell (s : State) (g : Stage) (n t : Nat) : (s.startSlot g n t).cell = s.cell := by
  unfold State.startSlot
  split
  · split <;> simp
  · rfl

@[simp] theorem State.startFrame_cell (s : State) (g : Stage) (t : Nat) : (s.startFrame g t).cell = s.cell := by
  unfold State.startFrame
  split
  · split <;> simp
  · rfl

@[simp] theorem State.slotExpiry_cell (s : State) (g : Stage) (run : Running) : (s.slotExpiry g run).cell = s.cell := by
  unfold State.slotExpiry State.nextSlot
  split
  · split <;> simp
  · simp

@[simp] theorem State.splitExpiry_cell (s : State) (g : Stage) (run : Running) (t : Nat) :
    (s.splitExpiry g run t).cell = s.cell := by
  simp [State.splitExpiry]

@[simp] theorem State.adoptNow_cell (s : State) (g : Stage) (f : List Slot) : (s.adoptNow g f).cell = s.cell := by
  unfold State.adoptNow
  dsimp only
  split <;> simp

@[simp] theorem State.enterReady_cell (s : State) (g : Stage) (checksFirst : Bool) :
    (s.enterReady g checksFirst).cell = s.cell := by
  unfold State.enterReady State.checkMembers State.startReadyFrame
  dsimp only
  split <;> simp

@[simp] theorem State.stopIfReady_cell (s : State) (g : Stage) (before : StageMode) :
    (s.stopIfReady g before).cell = s.cell := by
  rcases s.stopIfReady_cases g before with ⟨_, q⟩ | ⟨_, q⟩ <;> simp [q]

@[simp] theorem State.faultMembers_cell (s : State) (g : Stage) : (s.faultMembers g).cell = s.cell :=
  s.eachHead_cell _ fun h u => u.takeCause_cell h .stageFault

@[simp] theorem State.enterFault_cell (s : State) (g : Stage) (cause : FaultCause) (code : Nat) :
    (s.enterFault g cause code).cell = s.cell := by
  simp [State.enterFault, State.faultStage]

@[simp] theorem State.turnOff_cell (s : State) (g : Stage) : (s.turnOff g).cell = s.cell := by
  simp [State.turnOff]

@[simp] theorem State.estopStage_cell (s : State) (g : Stage) : (s.estopStage g).cell = s.cell := by
  rcases s.estopStage_cases g with ⟨_, q⟩ | ⟨_, q⟩ <;> simp [q]

@[simp] theorem State.busReported_cell (s : State) (g : Stage) (ready : Bool) :
    (s.busReported g ready).cell = s.cell := by
  unfold State.busReported
  dsimp only
  split <;> simp

@[simp] theorem State.tripReported_cell (s : State) (g : Stage) (code : Nat) : (s.tripReported g code).cell = s.cell := by
  unfold State.tripReported
  split <;> simp

@[simp] theorem State.settleExpired_cell (s : State) (g : Stage) (checksFirst : Bool) :
    (s.settleExpired g checksFirst).cell = s.cell := by
  unfold State.settleExpired
  split <;> simp

/-- A message acts only where it passes the integrity check (R116), and leaves the cell where its act does. -/
theorem ifIntact_cell (s : State) (intact : Bool) {f : State → State} (same : (f s).cell = s.cell) :
    (ifIntact intact f s).cell = s.cell := by
  cases intact
  · rfl
  · exact same

/-! ## The work of a segment report leaves the cell -/

@[simp] theorem State.raise?_cell (s : State) (e : Option Event) : (s.raise? e).cell = s.cell := by
  cases e <;> rfl

@[simp] theorem State.tunerTakes_cell (s : State) (h : Head) (rep : SegReport) :
    (s.tunerTakes h rep).state.cell = s.cell := by
  have searched : (s.searchStep h).state.cell = s.cell := by
    unfold State.searchStep
    dsimp only
    split <;> rfl
  unfold State.tunerTakes
  dsimp only
  split
  · split
    · rfl
    · exact searched
  · split <;> rfl
  · rfl

@[simp] theorem State.enterHeating_cell (s : State) (h : Head) : (s.enterHeating h).1.cell = s.cell := by
  unfold State.enterHeating
  split <;> rfl

@[simp] theorem State.heatChecks_cell (s : State) (h : Head) (heating : Bool) :
    (s.heatChecks h heating).1.cell = s.cell := by
  unfold State.heatChecks
  split
  · rfl
  · split
    · split <;> rfl
    · rfl

@[simp] theorem State.takeTuner_cell (s : State) (h : Head) (reply : TunerReply) :
    (s.takeTuner h reply).cell = s.cell := by
  cases reply <;> simp [State.takeTuner]

@[simp] theorem State.tunerThenHeat_cell (s : State) (h : Head) (heating : Bool) (reply : TunerReply) :
    (s.tunerThenHeat h heating reply).cell = s.cell := by
  cases reply with
  | nothing => simp [State.tunerThenHeat]
  | lock =>
    simp only [State.tunerThenHeat]
    split <;> simp
  | cause o => simp [State.tunerThenHeat]

@[simp] theorem State.flagPassedCeiling_cell (s : State) (h : Head) (w : TunerWork) :
    (s.flagPassedCeiling h w).cell = s.cell := by
  unfold State.flagPassedCeiling
  split <;> rfl

@[simp] theorem State.reportWork_cell (s : State) (h : Head) (rep : SegReport) (order : ReportOrder)
    (eventFirst : Bool) : (s.reportWork h rep order eventFirst).cell = s.cell := by
  cases order with
  | tunerCauseFirst => simp [State.reportWork]
  | tunerActsFirst =>
    simp only [State.reportWork]
    split <;> simp
  | heatFirst =>
    simp only [State.reportWork]
    split <;> simp

@[simp] theorem State.handReport_cell (s : State) (h : Head) (rep : SegReport) (ordered : Nat) (order : ReportOrder)
    (eventFirst : Bool) : (s.handReport h rep ordered order eventFirst).cell = s.cell := by
  unfold State.handReport
  split <;> simp [State.countReport]

@[simp] theorem State.segmentReported_cell (s : State) (g : Stage) (rep : SegReport) (order : ReportOrder)
    (eventFirst : Bool) : (s.segmentReported g rep order eventFirst).cell = s.cell := by
  unfold State.segmentReported
  split
  · rfl
  · dsimp only
    split <;> simp [State.dropSegment]

/-! ## The phase timers, the samples and the store leave the cell -/

@[simp] theorem State.phaseExits_cell (s : State) (h : Head) : (s.phaseExits h).cell = s.cell := by
  unfold State.phaseExits
  split <;> simp

@[simp] theorem State.durationExpired_cell (s : State) (h : Head) : (s.durationExpired h).cell = s.cell := by
  unfold State.durationExpired
  split
  · split <;> simp
  · rfl

@[simp] theorem State.checkSample_cell (s : State) (h : Head) : (s.checkSample h).cell = s.cell := by
  have heat : (s.heatSample h).cell = s.cell := by
    unfold State.heatSample
    split
    · dsimp only
      split <;> simp
    · rfl
  unfold State.checkSample
  split
  · simp
  · split
    · exact heat
    · rfl

@[simp] theorem State.sample_cell (s : State) (h : Head) (m : Sample) : (s.sample h m).cell = s.cell := by
  unfold State.sample
  split
  · dsimp only
    split <;> simp
  · rfl

@[simp] theorem State.storeDone_cell (s : State) (t : StoreRec) (e : Event) : (s.storeDone t e).cell = s.cell := by
  unfold State.storeDone
  dsimp only
  split <;> simp

@[simp] theorem State.programDone_cell (s : State) (passed : Bool) : (s.programDone passed).cell = s.cell := by
  unfold State.programDone
  split <;> simp

@[simp] theorem State.eraseDone_cell (s : State) (passed : Bool) : (s.eraseDone passed).cell = s.cell := by
  unfold State.eraseDone
  split <;> simp

@[simp] theorem State.suspendEnds_cell (s : State) : s.suspendEnds.cell = s.cell :=
  State.serveAll_cell _

/-! ## What the interlock block does without the causes -/

@[simp] theorem State.raiseIf_cell (s : State) (b : Bool) (e : Event) : (s.raiseIf b e).cell = s.cell := by
  cases b <;> rfl

@[simp] theorem State.clampFell_cell (s : State) (h : Head) : (s.clampFell h).cell = s.cell := by
  simp [State.clampFell]

@[simp] theorem State.clampRose_cell (s : State) (h : Head) : (s.clampRose h).cell = s.cell := by
  have seen : (s.clampSeen h).cell = s.cell := by
    unfold State.clampSeen
    split <;> rfl
  simp [State.clampRose, seen]

@[simp] theorem State.flowFell_cell (s : State) (h : Head) : (s.flowFell h).cell = s.cell := by
  unfold State.flowFell
  dsimp only
  split <;> rfl

@[simp] theorem State.flowRose_cell (s : State) (h : Head) : (s.flowRose h).cell = s.cell := by
  simp [State.flowRose, State.setGrace]

@[simp] theorem State.graceExpired_cell (s : State) (h : Head) : (s.graceExpired h).cell = s.cell := by
  simp [State.graceExpired, State.setGrace]

@[simp] theorem State.estopStages_cell (s : State) : s.estopStages.cell = s.cell := by
  simp [State.estopStages]

@[simp] theorem State.estopJoints_cell (s : State) : s.estopJoints.cell = s.cell :=
  s.eachHead_cell _ fun h u => u.takeCause_cell h .abortedEstop

/-- Of an ESTOP assertion only its step 1 touches the cell (R157). -/
@[simp] theorem State.estopActs_cell (s : State) (stagesFirst : Bool) (place : EventPlace) :
    (s.estopActs stagesFirst place).cell = s.cell := by
  unfold State.estopActs
  cases stagesFirst <;> cases place <;> simp

@[simp] theorem State.estopTaken_cell (s : State) :
    s.estopTaken.cell = { s.cell with mode := .interlocked, causeEstop := true } :=
  State.estopActs_cell _ _ _

@[simp] theorem State.motionFlush_cell (s : State) : s.motionFlush.cell = s.cell := by
  unfold State.motionFlush
  split
  · exact foldl_cell _ s State.flushHead_cell
  · rfl

/-! ## The requests that leave the cell (R191) -/

theorem withHead_cell {s : State} (n : Nat) {owner : Head → State → State × Answer}
    (same : ∀ h, (owner h s).1.cell = s.cell) : (withHead n owner s).1.cell = s.cell := by
  rcases withHead_cases n owner s with ⟨h, _, q⟩ | ⟨_, q⟩
  · rw [q]; exact same h
  · rw [q]

theorem withStage_cell {s : State} (n : Nat) {owner : Stage → State → State × Answer}
    (same : ∀ g, (owner g s).1.cell = s.cell) : (withStage n owner s).1.cell = s.cell := by
  rcases withStage_cases n owner s with ⟨g, _, q⟩ | ⟨_, q⟩
  · rw [q]; exact same g
  · rw [q]

@[simp] theorem State.enableHead_cell (s : State) (h : Head) (enable : Option Nat) :
    (s.enableHead h enable).cell = s.cell := by
  unfold State.enableHead State.turnHeadOff State.turnHeadOn
  split
  · split <;> simp
  · split <;> simp
  · rfl

theorem reqSetHead_cell (head : Nat) (items : List Item) (s : State) : (reqSetHead head items s).1.cell = s.cell := by
  refine withHead_cell head fun h => ?_
  dsimp only
  split
  · split <;> simp
  · rfl

theorem reqSetStage_cell (stage : Nat) (items : List Item) (s : State) : (reqSetStage stage items s).1.cell = s.cell := by
  refine withStage_cell stage fun g => ?_
  split
  · split <;> rfl
  · rfl

theorem reqLoadFrame_cell (stage : Nat) (slots : List RawSlot) (s : State) :
    (reqLoadFrame stage slots s).1.cell = s.cell := by
  refine withStage_cell stage fun g => ?_
  split
  · rfl
  · split <;> simp

theorem reqSubmitJob_cell (head : Nat) (raw : RawJob) (s : State) : (reqSubmitJob head raw s).1.cell = s.cell := by
  refine withHead_cell head fun h => ?_
  split
  · rfl
  · split <;> simp [State.acceptJob]

theorem reqCancelJob_cell (head tag : Nat) (s : State) : (reqCancelJob head tag s).1.cell = s.cell := by
  refine withHead_cell head fun h => ?_
  split
  · rfl
  · split
    · simp [State.cancelQueued]
    · split
      · split <;> simp
      · rfl

theorem reqStartHeads_cell (set : Byte) (s : State) : (reqStartHeads set s).1.cell = s.cell :=
  foldl_cell _ s fun u h => by simp [State.seeStart]

theorem reqPower_cell (stage order : Nat) (s : State) : (reqPower stage order s).1.cell = s.cell := by
  have off : (reqPowerOff stage s).1.cell = s.cell := by
    refine withStage_cell stage fun g => ?_
    have down : (s.powerDown g).1.cell = s.cell := by
      unfold State.powerDown
      split
      · rfl
      · exact s.turnOff_cell g
    split
    · rfl
    · exact down
    · exact down
    · rfl
  have on : (reqPowerOn stage s).1.cell = s.cell := by
    refine withStage_cell stage fun g => ?_
    split
    · split <;> rfl
    all_goals rfl
  unfold reqPower
  split
  · exact off
  · exact on
  · rfl

theorem reqClearFaultHead_cell (head : Nat) (s : State) : (reqClearFaultHead head s).1.cell = s.cell := by
  refine withHead_cell head fun h => ?_
  split <;> simp

theorem reqClearFaultStage_cell (stage : Nat) (s : State) : (reqClearFaultStage stage s).1.cell = s.cell := by
  refine withStage_cell stage fun g => ?_
  split <;> rfl

theorem reqFetchResults_cell (s : State) : (reqFetchResults s).1.cell = s.cell := by
  unfold reqFetchResults
  dsimp only
  split <;> simp

theorem reqReadRecipe_cell (entry : Nat) (s : State) : (reqReadRecipe entry s).1.cell = s.cell := by
  unfold reqReadRecipe
  split
  · rfl
  · split <;> rfl

theorem reqProgramRecipe_cell (entry : Nat) (record : List Byte) (s : State) :
    (reqProgramRecipe entry record s).1.cell = s.cell := by
  unfold reqProgramRecipe
  split
  · rfl
  · split
    · rfl
    · split
      · rfl
      · split <;> rfl

theorem reqEraseBank_cell (bank : Nat) (s : State) : (reqEraseBank bank s).1.cell = s.cell := by
  unfold reqEraseBank
  split
  · rfl
  · split <;> rfl

theorem reqSetProtect_cell (working master : Nat) (s : State) : (reqSetProtect working master s).1.cell = s.cell := by
  unfold reqSetProtect
  split
  · split <;> rfl
  · rfl

/-! ## INTERLOCKED and its causes -/

/-- Every next state an outcome answers has the device INTERLOCKED exactly while a cause stands. -/
def NextCausesOk (o : Host.Outcome State Fault Refusal) : Prop := ∀ t, o = .next t → t.CausesOk

theorem nextCausesOk_next {s : State} (ok : s.CausesOk) : NextCausesOk (.next s) := by
  rintro t ⟨rfl⟩; exact ok

namespace State.CausesOk

variable {s t : State}

/-- The condition is about the cell alone. -/
theorem of_cell (ok : s.CausesOk) (same : t.cell = s.cell) : t.CausesOk := by
  unfold State.CausesOk at *
  rwa [same]

/-- HOLD and RESUME change the mode only between RUN and HOLD. -/
theorem setMode (ok : s.CausesOk) {m : DeviceMode} (before : s.cell.mode ≠ .interlocked) (after : m ≠ .interlocked) :
    (s.setMode m).CausesOk :=
  ⟨fun locked => absurd locked after, fun cause => absurd (ok.2 cause) before⟩

theorem reqHold (ok : s.CausesOk) : (Machine.reqHold s).1.CausesOk := by
  unfold Machine.reqHold
  split
  · next run => exact ok.setMode (by simp [run]) (by decide)
  · exact ok
  · exact ok

theorem reqResume (ok : s.CausesOk) : (Machine.reqResume s).1.CausesOk := by
  unfold Machine.reqResume
  split
  · exact ok
  · next hold =>
    split
    · exact ok
    · exact (ok.setMode (m := .run) (by simp [hold]) (by decide)).of_cell (State.startChecks_cell _ _)
  · exact ok

/-- CLEAR_FAULT for the device leaves INTERLOCKED and both causes together (R156). -/
theorem reqClearFaultDevice (ok : s.CausesOk) : (Machine.reqClearFaultDevice s).1.CausesOk := by
  unfold Machine.reqClearFaultDevice
  split
  · exact ok
  · exact ok
  · split
    · simp [State.CausesOk]
    · exact ok

theorem reqClearFault (ok : s.CausesOk) (target number : Nat) : (Machine.reqClearFault target number s).1.CausesOk := by
  unfold Machine.reqClearFault
  split
  · exact ok.of_cell (reqClearFaultHead_cell number s)
  · exact ok.of_cell (reqClearFaultStage_cell number s)
  · exact ok.reqClearFaultDevice
  · exact ok

/-- SET_CELL sets neither the mode nor a cause. -/
theorem reqSetCell (ok : s.CausesOk) (items : List Item) : (Machine.reqSetCell items s).1.CausesOk := by
  unfold Machine.reqSetCell
  split <;> exact ok

/-- Whatever its owner does with a request, the mode and the causes stay together. -/
theorem takeRequest (ok : s.CausesOk) (q : Request) : (Machine.takeRequest q s).1.CausesOk := by
  cases q with
  | identify => exact ok
  | getStatus => exact ok
  | reset => exact ok
  | setCell items => exact ok.reqSetCell items
  | setHead head items => exact ok.of_cell (reqSetHead_cell head items s)
  | setStage stage items => exact ok.of_cell (reqSetStage_cell stage items s)
  | loadFrame stage slots => exact ok.of_cell (reqLoadFrame_cell stage slots s)
  | submitJob head job => exact ok.of_cell (reqSubmitJob_cell head job s)
  | cancelJob head tag => exact ok.of_cell (reqCancelJob_cell head tag s)
  | flushQueue head => exact ok.of_cell (withHead_cell head s.flushHead_cell)
  | startHeads heads => exact ok.of_cell (reqStartHeads_cell heads s)
  | hold => exact ok.reqHold
  | resume => exact ok.reqResume
  | power stage order => exact ok.of_cell (reqPower_cell stage order s)
  | clearFault target number => exact ok.reqClearFault target number
  | getHead head => exact ok.of_cell (withHead_cell head fun _ => rfl)
  | getStage stage => exact ok.of_cell (withStage_cell stage fun _ => rfl)
  | getFrame stage => exact ok.of_cell (withStage_cell stage fun _ => rfl)
  | fetchResults => exact ok.of_cell (reqFetchResults_cell s)
  | fetchEvents => exact ok
  | readRecipe entry => exact ok.of_cell (reqReadRecipe_cell entry s)
  | programRecipe entry record => exact ok.of_cell (reqProgramRecipe_cell entry record s)
  | eraseBank bank => exact ok.of_cell (reqEraseBank_cell bank s)
  | getStore => exact ok
  | clearStore => exact ok
  | setProtect working master => exact ok.of_cell (reqSetProtect_cell working master s)

/-! ## The cell link and the resets -/

theorem process (ok : s.CausesOk) (f : LinkFrame) : (s.process f).CausesOk := by
  unfold State.process State.takeFrame
  split
  · exact ok
  · split
    · exact ok
    · next q _ => exact takeRequest (s := { s with link := { s.link with processing := some f } }) ok q

theorem acceptFrame (ok : s.CausesOk) (f : LinkFrame) : (s.acceptFrame f).CausesOk := by
  rcases s.acceptFrame_cases f with ⟨_, q⟩ | ⟨_, _, q⟩ | ⟨_, _, q⟩
  · rw [q]; exact ok.process f
  · rw [q]; exact ok
  · rw [q]; exact ok

theorem byteArrives (ok : s.CausesOk) (b : Byte) (stopBit : Bool) : (s.byteArrives b stopBit).CausesOk := by
  have collects (bytes : List Byte) : (s.frameByte bytes).CausesOk := by
    unfold State.frameByte
    split
    · exact ok
    · exact ok
    · exact acceptFrame (s := s.hunt) ok _
  unfold State.byteArrives
  split
  · split <;> exact ok
  · split
    · exact collects _
    · exact ok

theorem frameArrives (ok : s.CausesOk) (f : LinkFrame) : (s.frameArrives f).CausesOk := by
  unfold State.frameArrives
  split
  · exact acceptFrame (s := s.hunt) ok f
  · exact ok

/-- A reset leaves HOLD and no cause (R151). -/
theorem of_resetPart (s : State) (kind : ResetKind) (strap : Rate) (store : StoreRec) :
    (s.resetPart kind strap store).CausesOk := by
  simp [State.CausesOk, State.resetPart, CellRec.reset]

theorem replyGone (ok : s.CausesOk) : s.replyGone.CausesOk := by
  unfold State.replyGone
  split
  · exact ok
  · dsimp only
    split
    · exact of_resetPart _ _ _ _
    · split
      · unfold State.nextFrame
        split
        · next f _ => exact process (s := { s with link := { s.link with replies := _, waiting := none } }) ok f
        · exact ok
      · exact ok

theorem resetLineReleased (ok : s.CausesOk) (time : Nat) : NextCausesOk (execResetLineReleased time s) := by
  unfold execResetLineReleased
  refine nextCausesOk_next ?_
  split <;> exact ok

/-! ## The line inputs (R151 to R160) -/

/-- A line input is no mode and no cause. -/
theorem setInput (ok : s.CausesOk) (i : LineInput) (x : Input) : (s.setInput i x).CausesOk := by
  cases i <;> exact ok

theorem lineInputChange (ok : s.CausesOk) (time : Nat) (i : LineInput) (level : Level) :
    NextCausesOk (execLineInputChange time i level s) := by
  unfold execLineInputChange State.lineChange
  split
  · exact nextCausesOk_next (setInput (s := s.advance time) ok i _)
  · refine nextCausesOk_next ?_
    split
    · exact ok
    · exact setInput (s := s.advance time) ok i _

theorem takeChange (ok : s.CausesOk) (i : LineInput) (level : Level) {act : State → State}
    (acts : ∀ u : State, u.CausesOk → (act u).CausesOk) : (s.takeChange i level act).CausesOk := by
  rcases s.takeChange_cases i level act with ⟨_, q⟩ | ⟨_, q⟩
  · rw [q]; exact ok.setInput i _
  · rw [q]; exact acts _ (ok.setInput i _)

/-- An ESTOP assertion enters INTERLOCKED with its cause, from every mode (R157). -/
theorem of_estopTaken (s : State) : s.estopTaken.CausesOk := by
  simp [State.CausesOk]

/-- A MOTION assertion enters INTERLOCKED with its cause where a head is started; otherwise MOTION joins the causes of an
INTERLOCKED device alone (R159). -/
theorem motionAssert (ok : s.CausesOk) : s.motionAssert.CausesOk := by
  unfold State.motionAssert
  split
  · have locked : s.motionInterlocks.CausesOk := by simp [State.CausesOk, State.motionInterlocks]
    exact (locked.of_cell s.motionInterlocks.motionFlush_cell).of_cell
      (State.eachHead_cell _ _ fun h u => u.takeCause_cell h .abortedMotion)
  · have noted : s.motionNoted.cell.causeMotion = true ↔ s.cell.causeMotion = true ∨ s.cell.mode = .interlocked := by
      simp [State.motionNoted]
    exact ⟨fun locked => .inr (noted.2 (.inr locked)),
      fun cause => cause.elim (fun estop => ok.2 (.inl estop)) fun motion =>
        (noted.1 motion).elim (fun before => ok.2 (.inr before)) id⟩

/-! ## Commands -/

theorem atTime (ok : s.CausesOk) {time : Nat} {f : State → State}
    (acts : ∀ u : State, u.CausesOk → (f u).CausesOk) : NextCausesOk (Machine.atTime time s f) := by
  rcases atTime_cases time s f with ⟨_, q⟩ | ⟨_, q⟩
  · rw [q]; exact nextCausesOk_next (acts (s.advance time) ok)
  · rw [q]; exact nextCausesOk_next (s := s.advance time) ok

theorem atExpiry (ok : s.CausesOk) {timer : Option Nat} {f : State → State}
    (acts : ∀ u : State, u.CausesOk → (f u).CausesOk) : NextCausesOk (Machine.atExpiry timer s f) := by
  rcases atExpiry_cases timer s f with ⟨e, _, _, q⟩ | q
  · rw [q]; exact nextCausesOk_next (acts (s.advance e) ok)
  · rw [q]; exact nextCausesOk_next ok

theorem atStoreExpiry (ok : s.CausesOk) {timer : Option Nat} {f : State → State}
    (same : ∀ u : State, (f u).cell = u.cell) : NextCausesOk (Machine.atStoreExpiry timer s f) := by
  rcases atStoreExpiry_cases timer s f with ⟨e, _, q⟩ | ⟨_, q⟩
  · rw [q]; exact nextCausesOk_next (of_cell (s := s.advance e) ok (same _))
  · rw [q]; exact nextCausesOk_next ok

/-- A request row of the table takes its request as a frame does. -/
theorem request (ok : s.CausesOk) {time : Nat} {k : Kind} {tag : Byte} (q : Request) :
    NextCausesOk (Machine.atTime time s (respond k tag false (Machine.takeRequest q))) :=
  ok.atTime fun _ ok => ok.takeRequest q

/-- A timer whose expiry leaves the cell. -/
theorem expires (ok : s.CausesOk) {timer : Option Nat} {f : State → State} (same : ∀ u : State, (f u).cell = u.cell) :
    NextCausesOk (Machine.atExpiry timer s f) :=
  ok.atExpiry fun u ok => ok.of_cell (same u)

theorem settleTimerExpiry (ok : s.CausesOk) (g : Stage) : NextCausesOk (execSettleTimerExpiry g s) := by
  refine ok.expires fun u => ?_
  exact u.chose.settleExpired_cell g _

theorem completionTimerExpiry (ok : s.CausesOk) (g : Stage) : NextCausesOk (execCompletionTimerExpiry g s) := by
  refine ok.expires fun u => ?_
  exact u.enterFault_cell g _ _

theorem slotTimerExpiry (ok : s.CausesOk) (g : Stage) : NextCausesOk (execSlotTimerExpiry g s) := by
  refine ok.expires fun u => ?_
  split <;> simp

theorem splitTimerExpiry (ok : s.CausesOk) (g : Stage) : NextCausesOk (execSplitTimerExpiry g s) := by
  refine ok.expires fun u => ?_
  split
  · split <;> simp
  · rfl

theorem armTimerExpiry (ok : s.CausesOk) (h : Head) : NextCausesOk (execArmTimerExpiry h s) := by
  refine ok.expires fun u => ?_
  exact State.takeCause_cell _ h _

theorem durationTimerExpiry (ok : s.CausesOk) (h : Head) : NextCausesOk (execDurationTimerExpiry h s) := by
  refine ok.expires fun u => ?_
  exact State.durationExpired_cell _ h

theorem timeLimitExpiry (ok : s.CausesOk) (h : Head) : NextCausesOk (execTimeLimitExpiry h s) := by
  refine ok.expires fun u => ?_
  exact State.takeCause_cell _ h _

theorem lostTimerExpiry (ok : s.CausesOk) (h : Head) : NextCausesOk (execLostTimerExpiry h s) := by
  refine ok.expires fun u => ?_
  exact State.takeCause_cell _ h _

theorem pyrometerSample (ok : s.CausesOk) (time : Nat) (h : Head) (intact : Bool) (m : Sample) :
    NextCausesOk (execPyrometerSample time h intact m s) :=
  ok.atTime fun u ok => ok.of_cell (u.sample_cell h (if intact then m else .sensorFault))

theorem initialLevelTaken (ok : s.CausesOk) (i : LineInput) : NextCausesOk (execInitialLevelTaken i s) := by
  refine ok.atExpiry fun u ok => ?_
  dsimp only
  split
  · exact of_estopTaken _
  · exact ok.setInput i _

theorem estopReleased (ok : s.CausesOk) : NextCausesOk (execEstopReleased s) := by
  refine ok.atExpiry fun u ok => ok.takeChange _ _ ?_
  exact fun _ ok => ok

theorem motionReleased (ok : s.CausesOk) : NextCausesOk (execMotionReleased s) := by
  refine ok.atExpiry fun u ok => ok.takeChange _ _ ?_
  exact fun _ ok => ok.of_cell (State.startChecks_cell _ _)

theorem keyChange (ok : s.CausesOk) : NextCausesOk (execKeyChange s) :=
  ok.atExpiry fun u ok => ok.setInput .key { u.input .key with taken := some (u.input .key).pin, filter := none }

/-- Every command keeps INTERLOCKED and its causes together. -/
theorem exec (ok : s.CausesOk) (c : Instr) : NextCausesOk (Machine.exec c s) := by
  cases c with
  | identify => exact ok.request .identify
  | getStatus => exact ok.request .getStatus
  | reset => exact ok.request .reset
  | setCell _ _ items => exact ok.request (.setCell items)
  | setHead _ _ head items => exact ok.request (.setHead head items)
  | setStage _ _ stage items => exact ok.request (.setStage stage items)
  | loadFrame _ _ stage slots => exact ok.request (.loadFrame stage slots)
  | submitJob _ _ head job => exact ok.request (.submitJob head job)
  | cancelJob _ _ head tag => exact ok.request (.cancelJob head tag)
  | flushQueue _ _ head => exact ok.request (.flushQueue head)
  | startHeads _ _ heads => exact ok.request (.startHeads heads)
  | hold => exact ok.request .hold
  | resume => exact ok.request .resume
  | powerOn _ _ stage => exact ok.request (.power stage 0x01)
  | powerOff _ _ stage => exact ok.request (.power stage 0x00)
  | clearFaultHead _ _ head => exact ok.request (.clearFault 0x00 head)
  | clearFaultStage _ _ stage => exact ok.request (.clearFault 0x01 stage)
  | clearFaultDevice => exact ok.request (.clearFault 0x02 0)
  | getHead _ _ head => exact ok.request (.getHead head)
  | getStage _ _ stage => exact ok.request (.getStage stage)
  | getFrame _ _ stage => exact ok.request (.getFrame stage)
  | fetchResults => exact ok.request .fetchResults
  | fetchEvents => exact ok.request .fetchEvents
  | readRecipe _ _ entry => exact ok.request (.readRecipe entry)
  | programRecipe _ _ entry record => exact ok.request (.programRecipe entry record)
  | eraseBank _ _ bank => exact ok.request (.eraseBank bank)
  | getStore => exact ok.request .getStore
  | clearStore => exact ok.request .clearStore
  | setProtect _ _ working master => exact ok.request (.setProtect working master)
  | frameReceived => exact ok.atTime fun _ ok => ok.frameArrives _
  | byteReceived => exact ok.atTime fun _ ok => ok.byteArrives _ _
  | gapTimerExpiry => exact ok.atExpiry fun _ ok => ok
  | replySent => exact ok.atTime fun _ ok => ok.replyGone
  | resetLine => exact ok.atTime fun _ _ => of_resetPart _ _ _ _
  | resetLineReleased time => exact ok.resetLineReleased time
  | powerOnReset => exact nextCausesOk_next (of_resetPart _ _ _ _)
  | busReport _ g => exact ok.atTime fun u ok => ok.of_cell (ifIntact_cell u _ (u.busReported_cell g _))
  | segmentReport _ g => exact ok.atTime fun u ok => ok.of_cell (ifIntact_cell u _ (u.chose.segmentReported_cell g _ _ _))
  | tripReport _ g => exact ok.atTime fun u ok => ok.of_cell (ifIntact_cell u _ (u.tripReported_cell g _))
  | settleTimerExpiry g => exact ok.settleTimerExpiry g
  | completionTimerExpiry g => exact ok.completionTimerExpiry g
  | slotTimerExpiry g => exact ok.slotTimerExpiry g
  | splitTimerExpiry g => exact ok.splitTimerExpiry g
  | armTimerExpiry h => exact ok.armTimerExpiry h
  | durationTimerExpiry h => exact ok.durationTimerExpiry h
  | timeLimitExpiry h => exact ok.timeLimitExpiry h
  | pyrometerSample time h intact m => exact ok.pyrometerSample time h intact m
  | lostTimerExpiry h => exact ok.lostTimerExpiry h
  | lineInputChange time i level => exact ok.lineInputChange time i level
  | initialLevelTaken i => exact ok.initialLevelTaken i
  | estopAsserted => exact ok.atExpiry fun _ ok => ok.takeChange _ _ fun u _ => of_estopTaken u
  | estopReleased => exact ok.estopReleased
  | motionAsserted => exact ok.atExpiry fun _ ok => ok.takeChange _ _ fun _ ok => ok.motionAssert
  | motionReleased => exact ok.motionReleased
  | clampFallingEdge h => exact ok.atExpiry fun _ ok => ok.takeChange _ _ fun u ok => ok.of_cell (u.clampFell_cell h)
  | clampRisingEdge h => exact ok.atExpiry fun _ ok => ok.takeChange _ _ fun u ok => ok.of_cell (u.clampRose_cell h)
  | flowFallingEdge h => exact ok.atExpiry fun _ ok => ok.takeChange _ _ fun u ok => ok.of_cell (u.flowFell_cell h)
  | flowRisingEdge h => exact ok.atExpiry fun _ ok => ok.takeChange _ _ fun u ok => ok.of_cell (u.flowRose_cell h)
  | keyChange => exact ok.keyChange
  | flowGraceTimerExpiry h => exact ok.expires fun u => u.graceExpired_cell h
  | programComplete => exact ok.atStoreExpiry fun u => u.programDone_cell _
  | eraseComplete => exact ok.atStoreExpiry fun u => u.eraseDone_cell _
  | suspendTimerExpiry => exact ok.atStoreExpiry State.suspendEnds_cell

end State.CausesOk

/-- Settles O10: only the interlock block sets the mode and the causes, an assertion both together
(`State.CausesOk.of_estopTaken`, `State.CausesOk.motionAssert`) and the device clear both together
(`State.CausesOk.reqClearFaultDevice`); HOLD and RESUME never meet INTERLOCKED. -/
theorem causesMatchDeviceMode : Obligations.CausesMatchDeviceMode := by
  intro s t ok next
  unfold Machine.step at next
  split at next
  · next c rest _ => exact State.CausesOk.exec (s := { s with pending := rest }) ok c t next
  · exact nextCausesOk_next ok t next

end Sys2Proof.Machine
end

section
/-! HOLD, RESUME and CLEAR_FAULT for the device (R154 to R156): what each answers by the device mode, and that outside RUN no
head wants power and no joint starts. -/

namespace Sys2Proof.Machine

section

variable {s : State}

/-! ## Outside RUN (R13, R75) -/

/-- Outside RUN no head wants power (R75). -/
theorem State.wantsPower_outside (outside : s.cell.mode ≠ .run) (h : Head) : s.wantsPower h = false := by
  simp [State.wantsPower, outside]

/-- Outside RUN no joint can start (R13). -/
theorem State.canStart_outside (outside : s.cell.mode ≠ .run) (h : Head) : s.canStart h = false := by
  unfold State.canStart
  dsimp only
  split
  · simp [outside]
  · rfl

theorem State.startCheck_outside (outside : s.cell.mode ≠ .run) (h : Head) : s.startCheck h = s := by
  simp [State.startCheck, State.canStart_outside outside]

/-! ## The answers by the device mode (R154, R155, R156) -/

/-- The reply of HOLD and RESUME carries the code of the device mode. -/
theorem State.modeAnswer_of {m : DeviceMode} (mode : s.cell.mode = m) :
    s.modeAnswer = (s, .accept false [BitVec.ofNat 8 m.code]) := by
  subst mode
  have fits : s.cell.mode.code < 256 := by cases s.cell.mode <;> decide
  rw [State.modeAnswer, byteField_fits fits]

theorem reqHold_run (mode : s.cell.mode = .run) : reqHold s = (s.setMode .hold, .accept false [0x02]) := by
  simp only [reqHold, mode]
  exact State.modeAnswer_of rfl

/-- HOLD outside RUN changes nothing. -/
theorem reqHold_outside {m : DeviceMode} (mode : s.cell.mode = m) (outside : m ≠ .run) :
    reqHold s = (s, .accept false [BitVec.ofNat 8 m.code]) := by
  rw [← State.modeAnswer_of mode]
  cases m with
  | run => exact absurd rfl outside
  | hold => simp only [reqHold, mode]
  | interlocked => simp only [reqHold, mode]

theorem reqResume_run (mode : s.cell.mode = .run) : reqResume s = (s, .accept false [0x01]) := by
  simp only [reqResume, mode]
  exact State.modeAnswer_of mode

/-- RESUME with a known ESTOP level enters RUN and start-checks the heads. -/
theorem reqResume_hold_known (mode : s.cell.mode = .hold) (known : s.cell.estop.taken ≠ none) :
    reqResume s = ((s.setMode .run).startChecks Head.all, .accept false [0x01]) := by
  have entered : ((s.setMode .run).startChecks Head.all).cell.mode = .run := by
    rw [State.startChecks_cell]
    rfl
  simp only [reqResume, mode, if_neg known]
  exact State.modeAnswer_of entered

theorem reqResume_hold_unknown (mode : s.cell.mode = .hold) (unknown : s.cell.estop.taken = none) :
    reqResume s = (s, .refuse .interlock) := by
  simp only [reqResume, mode, if_pos unknown]

theorem reqResume_interlocked (mode : s.cell.mode = .interlocked) : reqResume s = (s, .refuse .interlock) := by
  simp only [reqResume, mode]

theorem reqClearFaultDevice_released (mode : s.cell.mode = .interlocked)
    (released : s.cell.estop.taken = some .high ∧ s.cell.motion.taken = some .high) :
    reqClearFaultDevice s =
      ({ s with cell := { s.cell with mode := .hold, causeEstop := false, causeMotion := false } },
        .accept false []) := by
  simp [reqClearFaultDevice, mode, Input.permits, released]

theorem reqClearFaultDevice_standing (mode : s.cell.mode = .interlocked)
    (standing : ¬ (s.cell.estop.taken = some .high ∧ s.cell.motion.taken = some .high)) :
    reqClearFaultDevice s = (s, .refuse .interlock) := by
  have forbids : ¬ (s.cell.estop.permits && s.cell.motion.permits) = true := by
    simpa [Input.permits] using standing
  simp only [reqClearFaultDevice, mode, if_neg forbids]

theorem reqClearFaultDevice_outside (mode : s.cell.mode ≠ .interlocked) :
    reqClearFaultDevice s = (s, .accept false []) := by
  cases m : s.cell.mode with
  | interlocked => exact absurd m mode
  | run => simp only [reqClearFaultDevice, m]
  | hold => simp only [reqClearFaultDevice, m]

end

/-- Settles O42: each clause is the answer of one request in one device mode, at the command's time. -/
theorem holdResumeAndClearByMode : Obligations.HoldResumeAndClearByMode := by
  intro time tag s run mode
  let u := s.advance time
  refine ⟨fun inRun => ?_, fun inHold => ?_, fun locked => ?_, fun outside h => ?_, fun inRun => ?_,
    fun inHold known => ?_, fun inHold unknown => ?_, fun locked => ?_, fun locked released => ?_,
    fun locked standing => ?_, fun unlocked => ?_⟩
  · exact request_accepted .hold tag reqHold run (reqHold_run (s := u) inRun)
  · exact request_accepted .hold tag reqHold run (reqHold_outside (s := u) inHold (by decide))
  · exact request_accepted .hold tag reqHold run (reqHold_outside (s := u) locked (by decide))
  · exact ⟨State.wantsPower_outside outside h, State.startCheck_outside outside h⟩
  · exact request_accepted .resume tag reqResume run (reqResume_run (s := u) inRun)
  · exact (atTime_run run time _).trans
      (congrArg Host.Outcome.next (respond_accept (reqResume_hold_known (s := u) inHold known) .resume tag false))
  · exact request_refused .resume tag reqResume run (reqResume_hold_unknown (s := u) inHold unknown)
  · exact request_refused .resume tag reqResume run (reqResume_interlocked (s := u) locked)
  · exact request_accepted .clearFault tag reqClearFaultDevice run
      (reqClearFaultDevice_released (s := u) locked released)
  · exact request_refused .clearFault tag reqClearFaultDevice run
      (reqClearFaultDevice_standing (s := u) locked standing)
  · exact request_accepted .clearFault tag reqClearFaultDevice run (reqClearFaultDevice_outside (s := u) unlocked)

end Sys2Proof.Machine
end

section
/-! The line inputs (R151 to R153): a change, an initial level and a taken level; and with them FLOW and its grace timer
(R163, R164). -/

namespace Sys2Proof.Machine

section

variable {s : State}

/-! ## A level taken (R152, R153) -/

theorem State.input_setInput_other (s : State) {i k : LineInput} (x : Input) (ne : k ≠ i) :
    (s.setInput i x).input k = s.input k := by
  cases i with
  | estop => cases k with
    | estop => exact absurd rfl ne
    | _ => rfl
  | motion => cases k with
    | motion => exact absurd rfl ne
    | _ => rfl
  | key => cases k with
    | key => exact absurd rfl ne
    | _ => rfl
  | clamp h => cases k with
    | clamp j => exact congrArg (·.line.clamp) (s.head_setHead_other _ fun same => ne (congrArg LineInput.clamp same))
    | flow j =>
      simp only [State.input, State.setInput, State.modHead, State.head_setHead]
      split
      · next same => rw [same]
      · rfl
    | _ => rfl
  | flow h => cases k with
    | flow j => exact congrArg (·.line.flow) (s.head_setHead_other _ fun same => ne (congrArg LineInput.flow same))
    | clamp j =>
      simp only [State.input, State.setInput, State.modHead, State.head_setHead]
      split
      · next same => rw [same]
      · rfl
    | _ => rfl

/-- An input once the level of its pin has been taken. -/
def Input.settled (x : Input) : Input := { pin := x.pin, taken := some x.pin, filter := none }

theorem State.takeLevel_advance (s : State) (e : Nat) (i : LineInput) :
    (s.advance e).takeLevel i = (s.advance e).setInput i (s.input i).settled := by
  simp [State.takeLevel, Input.settled]

/-- A filter that runs out on a change to `level` takes it, and the change acts. -/
theorem change_taken {i : LineInput} {level old : Level} {e : Nat} (run : s.inReset = false)
    (filter : (s.input i).filter = some e) (pin : (s.input i).pin = level) (taken : (s.input i).taken = some old)
    (act : State → State) (differs : old ≠ level := by decide) :
    atExpiry ((s.input i).changeDue level) s (·.takeChange i level act) =
      .next (act ((s.advance e).setInput i (s.input i).settled)) := by
  have due : (s.input i).changeDue level = some e := by simp [Input.changeDue, pin, taken, filter]
  have change : ((s.advance e).input i).taken ≠ some level := by simpa [taken] using differs
  rw [atExpiry_run run due, State.takeChange, if_neg change, State.takeLevel_advance]

/-! ## A change of the pin and an initial level -/

theorem lineChange_takes {i : LineInput} {level : Level} (run : s.inReset = false) (time : Nat)
    (change : (s.input i).pin ≠ level) : execLineInputChange time i level s =
      .next ((s.advance time).setInput i
        { pin := level, taken := (s.input i).taken, filter := some (max s.now time + 2) }) := by
  simp [execLineInputChange, run, State.lineChange, change, filterTime]

/-- An initial level is taken; an ESTOP that stands asserted acts besides. -/
theorem initialLevel_taken {i : LineInput} {e : Nat} (run : s.inReset = false) (unknown : (s.input i).taken = none)
    (filter : (s.input i).filter = some e) :
    execInitialLevelTaken i s = .next
      (if i = .estop ∧ (s.input i).pin = .low then ((s.advance e).setInput i (s.input i).settled).estopTaken
       else (s.advance e).setInput i (s.input i).settled) := by
  have due : (s.input i).initialDue = some e := by simp [Input.initialDue, unknown, filter]
  rw [execInitialLevelTaken, atExpiry_run run due, State.takeLevel_advance]
  by_cases estop : i = .estop
  · subst estop
    simp [State.setInput, State.input, Input.settled]
  · simp [estop]

end

/-- Settles O43: the clauses are `lineChange_takes`, `initialLevel_taken` by the input and the level, the KEY filter's
expiry, and the two reading rules of `setInput`. -/
theorem inputChangeRestartsFilter : Obligations.InputChangeRestartsFilter := by
  intro time i level s run
  refine ⟨lineChange_takes run time, fun e unknown filter => ⟨fun quiet => ?_, fun estop low => ?_⟩,
    fun e l taken filter => ?_, fun k x => ⟨s.input_setInput_same i x, s.input_setInput_other x⟩⟩
  · have idle : ¬ (i = .estop ∧ (s.input i).pin = .low) := by
      rintro ⟨estop, low⟩
      rcases quiet with other | high
      · exact other estop
      · rw [low] at high; cases high
    exact (initialLevel_taken run unknown filter).trans (by rw [if_neg idle]; rfl)
  · refine ⟨_, (initialLevel_taken run unknown filter).trans (by rw [if_pos ⟨estop, low⟩]), ?_⟩
    subst estop
    rw [State.estopTaken_cell]
    rfl
  · have due : s.keyDue = some e := by simp [State.keyDue, taken, filter]
    exact atExpiry_run run due (·.takeLevel .key)

/-! ## FLOW and the flow grace timer (R163, R164) -/

section

variable {s : State} {h : Head}

theorem HeadMode.heats_iff (m : HeadMode) : m.heats = true ↔ m = .tuning ∨ m = .heating := by
  cases m <;> simp [HeadMode.heats]

/-- The grace timer is set behind a FLOW level taken: one change of the head's line record. -/
theorem State.setGrace_flow (s : State) (h : Head) (x : Input) (grace : Option Nat) :
    (s.setInput (.flow h) x).setGrace h grace =
      s.setHead h { s.head h with line := { (s.head h).line with flow := x, graceTimer := grace } } := by
  simp [State.setGrace, State.setInput, State.modHead]

theorem State.flowFell_heats (heats : (s.head h).mode = .tuning ∨ (s.head h).mode = .heating) :
    s.flowFell h = (s.setGrace h (some (s.now + (s.head h).settings.flowGrace))).raise (.flowLow h) := by
  rw [State.flowFell]
  exact if_pos ((HeadMode.heats_iff _).2 heats)

theorem State.flowFell_other (tuning : (s.head h).mode ≠ .tuning) (heating : (s.head h).mode ≠ .heating) :
    s.flowFell h = s.raise (.flowLow h) := by
  rw [State.flowFell]
  exact if_neg fun heats => ((HeadMode.heats_iff _).1 heats).elim tuning heating

/-- The FLOW_OK event and the grace timer touch nothing in common. -/
theorem State.flowRose_eq (s : State) (h : Head) :
    s.flowRose h = ((s.setGrace h none).raise (.flowOk h)).startCheck h := rfl

/-- COOLANT is dropped in STOPPING, where another cause is recorded already (R15, R16). -/
theorem State.takeCause_coolant_stopping (stopping : (s.head h).mode = .stopping) : s.takeCause h .coolant = s := by
  rw [State.takeCause_stopping (by rw [stopping]; rfl) stopping]
  rfl

end

/-- Settles O47: a FLOW edge is a level taken (`change_taken`) and what it does by the head's state; the grace timer's
expiry is the cause and its event. -/
theorem flowEdgesAndGrace : Obligations.FlowEdgesAndGrace := by
  intro e h s run r x known taken stopped
  let u : State := (s.advance e).setInput (.flow h) known
  have head : u.head h = { r with line := { r.line with flow := known } } := State.head_setHead_same _ _ _
  have falls (filter : x.filter = some e) (low : x.pin = .low) (high : x.taken = some .high) :
      exec (.flowFallingEdge h) s = .next (u.flowFell h) :=
    change_taken (i := .flow h) run filter low high _
  have rises (filter : x.filter = some e) (high : x.pin = .high) (low : x.taken = some .low) :
      exec (.flowRisingEdge h) s = .next (u.flowRose h) :=
    change_taken (i := .flow h) run filter high low _
  refine ⟨fun filter pin level => ⟨fun heats => ?_, fun tuning heating => ?_⟩, fun filter pin level => ?_,
    fun timer => ?_⟩
  · rw [falls filter pin level, State.flowFell_heats (by rw [head]; exact heats), State.setGrace_flow, head]
    rfl
  · rw [falls filter pin level, State.flowFell_other (by rw [head]; exact tuning) (by rw [head]; exact heating)]
    rfl
  · rw [rises filter pin level, State.flowRose_eq, State.setGrace_flow]
    rfl
  · have expires : exec (.flowGraceTimerExpiry h) s = .next ((stopped.takeCause h .coolant).raise (.coolantFault h)) :=
      atExpiry_run run timer (·.graceExpired h)
    refine ⟨expires, fun stopping => ?_⟩
    have still : (stopped.head h).mode = .stopping := by
      rw [State.head_setHead_same]
      exact stopping
    rw [expires, State.takeCause_coolant_stopping still]

end Sys2Proof.Machine
end

section
/-! MOTION (R159, R160): what an assertion does with and without a started head, under KEEP and FLUSH, and its release. -/

namespace Sys2Proof.Machine

/-- Two folds whose acts agree wherever a kept condition holds end alike. -/
theorem foldl_congr_of_keeps {α : Type} {P : State → Prop} {act act' : State → α → State} (xs : List α) {s : State}
    (start : P s) (keeps : ∀ u x, P u → P (act u x)) (same : ∀ u x, P u → act u x = act' u x) :
    xs.foldl act s = xs.foldl act' s := by
  induction xs generalizing s with
  | nil => rfl
  | cons x rest ih =>
    rw [List.foldl_cons, List.foldl_cons, ← same s x start]
    exact ih (keeps s x start)

theorem State.anyStarted_iff (s : State) :
    s.anyStarted = true ↔ ∃ h, (s.head h).mode ∈ [HeadMode.tuning, .heating, .stopping] := by
  simp only [State.anyStarted, List.any_eq_true, Head.mem_all, true_and, HeadMode.started_iff]

theorem State.motionAborts_iff (s : State) (h : Head) : s.motionAborts h = true ↔
    (s.head h).mode ∈ [HeadMode.tuning, .heating, .stopping] ∨
      (s.cell.motionPolicy = .flush ∧ (s.head h).mode = .armed) := by
  simp only [State.motionAborts, Bool.or_eq_true, HeadMode.started_iff, Bool.and_eq_true, decide_eq_true_eq,
    and_comm]

theorem State.motionFlush_eq (s : State) :
    s.motionFlush = if s.cell.motionPolicy = .flush then Head.all.foldl State.flushHead s else s := by
  cases policy : s.cell.motionPolicy <;> simp [State.motionFlush, policy]

/-- The causes of step 4 of R159, the motion policy being read once: no cause changes it. -/
theorem State.motionAborts_fold (s : State) :
    (s.eachHead State.motionAborts fun h u => u.takeCause h .abortedMotion) = Head.all.foldl
      (fun u h => if (u.head h).mode ∈ [HeadMode.tuning, .heating, .stopping] ∨
          (s.cell.motionPolicy = .flush ∧ (u.head h).mode = .armed)
        then u.takeCause h .abortedMotion else u) s := by
  refine foldl_congr_of_keeps (P := fun u => u.cell = s.cell) _ rfl (fun u h kept => ?_) fun u h kept => ?_
  · split
    · exact (u.takeCause_cell h _).trans kept
    · exact kept
  · rw [← kept]
    exact ite_congr (propext (u.motionAborts_iff h)) (fun _ => rfl) fun _ => rfl

/-- Settles O45: an assertion is a level taken (`change_taken`), and `State.motionAssert` acts by whether a head is
started; the release is its event and the start checks. -/
theorem motionTakenByStartedHeads : Obligations.MotionTakenByStartedHeads := by
  intro e s run filter taken started flush
  refine ⟨fun low high => ?_, fun high low => change_taken (i := .motion) run filter high low _⟩
  have asserts : exec .motionAsserted s = .next taken.motionAssert :=
    change_taken (i := .motion) run filter low high _
  refine ⟨fun idle => ?_, fun busy => ?_⟩
  · have none_ : ¬ taken.anyStarted = true := fun any =>
      let ⟨h, on⟩ := taken.anyStarted_iff.1 any
      idle h on
    rw [asserts, State.motionAssert, if_neg none_]
    rfl
  · intro locked emptied
    have flushed : taken.motionInterlocks.motionFlush = emptied := locked.motionFlush_eq
    have policy : emptied.cell.motionPolicy = s.cell.motionPolicy := by
      rw [← flushed, State.motionFlush_cell]
      rfl
    rw [asserts, State.motionAssert, if_pos (taken.anyStarted_iff.2 busy), flushed, State.motionAborts_fold, policy]

end Sys2Proof.Machine
end

section
/-! ESTOP (R157, R158): what it makes of a stage (`StageRec.estopped`), how it ends every started joint, and its event. The
stages touch no head and the joints touch no stage, so each part holds in either order of the two (log entry 8). -/

namespace Sys2Proof.Machine

/-! ## The stages (R108) -/

/-- What a stage holds once ESTOP has been taken. -/
def StageRec.estopped (r : StageRec) : StageRec :=
  match r.mode with
  | .settling => r.turnedOff
  | .ready => { r.turnedOff with running := none, deferred := false, active := r.pendingFrame.or r.active,
                                 pendingFrame := none }
  | .off => r
  | .fault => r

/-- ESTOP changes the stage's record alone, and an adoption raises its event. -/
theorem State.estopStage_only (s : State) (g : Stage) :
    s.estopStage g = s.setStage g (s.stage g).estopped ∨
      ∃ e, s.estopStage g = (s.setStage g (s.stage g).estopped).raise e := by
  cases mode : (s.stage g).mode with
  | off => left; simp [State.estopStage, StageRec.estopped, mode]
  | fault => left; simp [State.estopStage, StageRec.estopped, mode]
  | settling => left; simp [State.estopStage, StageRec.estopped, mode, State.turnOff_settling mode]
  | ready =>
    cases pending : (s.stage g).pendingFrame with
    | none =>
      left
      simp [State.estopStage, StageRec.estopped, mode, State.turnOff_ready mode pending, pending, StageRec.turnedOff]
    | some f =>
      right
      refine ⟨.frameAdopted g, ?_⟩
      simp [State.estopStage, StageRec.estopped, mode, State.turnOff_ready_adopts mode pending, pending]

@[simp] theorem State.estopStage_heads (s : State) (g : Stage) : (s.estopStage g).heads = s.heads := by
  rcases s.estopStage_only g with q | ⟨e, q⟩ <;> simp [q]

theorem State.stage_estopStage (s : State) (g k : Stage) :
    (s.estopStage g).stage k = if k = g then (s.stage g).estopped else s.stage k := by
  rcases s.estopStage_only g with q | ⟨e, q⟩ <;> simp [q, State.stage_setStage]

@[simp] theorem State.estopStages_heads (s : State) : s.estopStages.heads = s.heads := by
  simp [State.estopStages]

@[simp] theorem State.stage_estopStages (s : State) (g : Stage) : s.estopStages.stage g = (s.stage g).estopped := by
  cases g <;> simp [State.estopStages, State.stage_estopStage]

/-! ## A cause that ends joints at once, and the other heads (R15, R16) -/

theorem State.takeCause_atOnce_stopping {s : State} {h : Head} {o : JointOutcome} (atOnce : o.atOnce = true)
    (taken : takenIn s.cell.motionPolicy o (s.head h).mode = true) (stopping : (s.head h).mode = .stopping) :
    s.takeCause h o = s.endRecorded h :=
  (State.takeCause_stopping taken stopping).trans (if_pos atOnce)

theorem State.takeCause_atOnce_running {s : State} {h : Head} {o : JointOutcome} (atOnce : o.atOnce = true)
    (taken : takenIn s.cell.motionPolicy o (s.head h).mode = true) (running : (s.head h).mode ≠ .stopping) :
    s.takeCause h o = (s.modJoint h fun j => { j with cause := some o }).endJoint h o :=
  (State.takeCause_taken taken running).trans (if_pos (by simp [atOnce]))

/-- A cause that ends joints at once is dropped, ends a STOPPING joint with its recorded cause, or is recorded and ends the
joint. -/
theorem State.takeCause_atOnce (s : State) (h : Head) {o : JointOutcome} (atOnce : o.atOnce = true) :
    s.takeCause h o = s ∨ s.takeCause h o = s.endRecorded h ∨
      s.takeCause h o = (s.modJoint h fun j => { j with cause := some o }).endJoint h o := by
  cases taken : takenIn s.cell.motionPolicy o (s.head h).mode with
  | false => exact .inl (State.takeCause_dropped taken)
  | true =>
    by_cases stopping : (s.head h).mode = .stopping
    · exact .inr (.inl (State.takeCause_atOnce_stopping atOnce taken stopping))
    · exact .inr (.inr (State.takeCause_atOnce_running atOnce taken stopping))

theorem State.head_modJoint_other (s : State) {h k : Head} (ne : k ≠ h) (f : Joint → Joint) :
    (s.modJoint h f).head k = s.head k :=
  s.head_setHead_other _ ne

theorem State.head_startCheck_other (s : State) {h k : Head} (ne : k ≠ h) : (s.startCheck h).head k = s.head k := by
  rcases s.startCheck_cases h with ⟨_, q⟩ | ⟨_, q⟩
  · rw [q, s.head_setHead_other _ ne]
  · rw [q]

/-- The head whose joint ends holds what `HeadRec.endJoint` says, and no other head changes (R18). -/
theorem State.head_endCore {s : State} {h : Head} {j : Joint} (active : (s.head h).joint = some j) (o : JointOutcome)
    (k : Head) : (s.endCore h o).head k = if k = h then (s.head h).endJoint o else s.head k := by
  obtain ⟨tr, rep, q, _⟩ := State.endCore_some active o
  rw [q]
  exact State.head_setHead _ _ _ _

theorem State.head_endCore_other (s : State) {h k : Head} (ne : k ≠ h) (o : JointOutcome) :
    (s.endCore h o).head k = s.head k := by
  cases active : (s.head h).joint with
  | none => rw [State.endCore_none active]
  | some j => rw [State.head_endCore active, if_neg ne]

/-- A fetch touches no other head, where its end does not. -/
theorem State.head_takeFetch_other {finish : Head → JointOutcome → State → State} {s : State} {f : Fetch} {k : Head}
    (ne : k ≠ f.head) (ends : (finish f.head .recipeMissing s).head k = s.head k) :
    (s.takeFetch finish f).head k = s.head k := by
  rcases s.takeFetch_cases finish f with q | q | ⟨_, _, q⟩
  · rcases s.serveFetch_cases finish f with ⟨r, _, served⟩ | ⟨_, _, served⟩ | ⟨_, _, served⟩
    · rw [q, served, State.head_startCheck_other _ ne, State.head_modJoint_other _ ne]
    · rw [q, served, ends]
    · rw [q, served]
  · rw [q]; rfl
  · rw [q]; rfl

/-- A re-try activates IDLE heads alone, so a head in any other state stays as it is (R8, R9). -/
theorem State.head_retryWithin (n : Nat) {s : State} {k : Head} (busy : (s.head k).mode ≠ .idle) :
    (State.retryWithin n s).head k = s.head k := by
  induction n generalizing s with
  | zero => rfl
  | succ n ih =>
    refine State.eachHead_keeps (P := fun u => u.head k = s.head k) rfl fun h u kept can => ?_
    have ne : k ≠ h := by
      rintro rfl
      simp [State.canActivate, kept, busy] at can
    unfold State.activate
    split
    · exact kept
    · next job rest _ =>
      have activated : (u.modHead h fun r => r.activate u.now job rest).head k = s.head k :=
        (u.head_setHead_other _ ne).trans kept
      refine (State.head_takeFetch_other ne ?_).trans activated
      have ended := (State.head_endCore_other (u.modHead h fun r => r.activate u.now job rest) ne .recipeMissing)
      exact (ih (by rw [ended, activated]; exact busy)).trans ended

/-- The end of a joint on one head leaves every other head as it is that is not IDLE. -/
theorem State.head_endJoint_other {s : State} {h k : Head} (ne : k ≠ h) (busy : (s.head k).mode ≠ .idle)
    (o : JointOutcome) : (s.endJoint h o).head k = s.head k := by
  have ended := s.head_endCore_other ne o
  exact (State.head_retryWithin _ (by rw [ended]; exact busy)).trans ended

theorem State.head_endRecorded_other {s : State} {h k : Head} (ne : k ≠ h) (busy : (s.head k).mode ≠ .idle) :
    (s.endRecorded h).head k = s.head k := by
  unfold State.endRecorded
  split
  · split
    · exact State.head_endJoint_other ne busy _
    · rfl
  · rfl

theorem State.head_takeCause_other {s : State} {h k : Head} {o : JointOutcome} (atOnce : o.atOnce = true) (ne : k ≠ h)
    (busy : (s.head k).mode ≠ .idle) : (s.takeCause h o).head k = s.head k := by
  rcases s.takeCause_atOnce h atOnce with q | q | q
  · rw [q]
  · rw [q, State.head_endRecorded_other ne busy]
  · have recorded := s.head_modJoint_other ne fun j => { j with cause := some o }
    rw [q, State.head_endJoint_other ne (by rw [recorded]; exact busy), recorded]

/-! ## Outside RUN a head that is not started stays so -/

/-- Outside RUN, and the head in none of TUNING, HEATING and STOPPING. -/
def State.Unstarted (k : Head) (s : State) : Prop := s.cell.mode ≠ .run ∧ (s.head k).mode.started = false

namespace State.Unstarted

variable {k : Head} {s : State}

theorem setHead (ok : s.Unstarted k) {h : Head} {r : HeadRec} (quiet : h = k → r.mode.started = false) :
    (s.setHead h r).Unstarted k := by
  refine ⟨ok.1, ?_⟩
  rw [State.head_setHead]
  split
  · next same => exact quiet same.symm
  · exact ok.2

end State.Unstarted

/-- A head that has ended its joint is IDLE or FAULTED (R18). -/
theorem HeadRec.endJoint_unstarted (r : HeadRec) (o : JointOutcome) : (r.endJoint o).mode.started = false := by
  unfold HeadRec.endJoint
  dsimp only
  split <;> rfl

namespace State.Unstarted

variable {k : Head} {s : State}

theorem endCore (ok : s.Unstarted k) (h : Head) (o : JointOutcome) : (s.endCore h o).Unstarted k := by
  cases active : (s.head h).joint with
  | none => rwa [State.endCore_none active]
  | some j =>
    obtain ⟨tr, rep, q, _⟩ := State.endCore_some active o
    rw [q]
    exact setHead (s := { s with tracker := tr, report := rep }) ok fun _ => HeadRec.endJoint_unstarted _ o

theorem modJoint (ok : s.Unstarted k) (h : Head) (f : Joint → Joint) : (s.modJoint h f).Unstarted k := by
  rw [State.modJoint_eq]
  exact ok.setHead fun same => by subst same; exact ok.2

/-- The job manager's moves start no joint outside RUN: an activated head is ARMED, and no start check holds. -/
theorem keepsJobMoves (k : Head) : KeepsJobMoves (State.Unstarted k) where
  activates ok _ _ := ok.setHead fun _ => rfl
  loads ok := ok.modJoint _ _
  starts ok can := absurd can (by simp [State.canStart_outside ok.1])
  ends ok := ok.endCore _ _
  queues ok := ok
  suspends ok := ok

theorem takeCause (ok : s.Unstarted k) (h : Head) {o : JointOutcome} (atOnce : o.atOnce = true) :
    (s.takeCause h o).Unstarted k := by
  rcases s.takeCause_atOnce h atOnce with q | q | q
  · rwa [q]
  · rw [q]; exact (keepsJobMoves k).endRecorded ok h
  · rw [q]; exact (keepsJobMoves k).endJoint (ok.modJoint h _) h o

/-- A joint that ends outside RUN leaves its head not started. -/
theorem of_endJoint {j : Joint} (outside : s.cell.mode ≠ .run) (active : (s.head k).joint = some j) (o : JointOutcome) :
    (s.endJoint k o).Unstarted k := by
  refine (keepsJobMoves k).retry ⟨?_, ?_⟩
  · rw [((SameAround.refl s).endCore k o).cell]
    exact outside
  · rw [State.head_endCore active, if_pos rfl]
    exact HeadRec.endJoint_unstarted _ o

/-- ABORTED_ESTOP taken for a started head ends its joint, in STOPPING with the cause recorded there (R15, R16). -/
theorem of_abortedEstop {j : Joint} (outside : s.cell.mode ≠ .run) (started : (s.head k).mode.started = true)
    (active : (s.head k).joint = some j) (recorded : (s.head k).mode = .stopping → j.cause.isSome) :
    (s.takeCause k .abortedEstop).Unstarted k := by
  have taken : takenIn s.cell.motionPolicy .abortedEstop (s.head k).mode = true := started
  by_cases stopping : (s.head k).mode = .stopping
  · obtain ⟨o, cause⟩ := Option.isSome_iff_exists.1 (recorded stopping)
    have ends : s.takeCause k .abortedEstop = s.endJoint k o := by
      rw [State.takeCause_atOnce_stopping rfl taken stopping, State.endRecorded, active]
      simp only [cause]
    rw [ends]
    exact of_endJoint outside active o
  · have holds : ((s.modJoint k fun j => { j with cause := some .abortedEstop }).head k).joint =
        some { j with cause := some .abortedEstop } := by
      rw [State.modJoint_eq, State.head_setHead_same, active]
      rfl
    rw [State.takeCause_atOnce_running rfl taken stopping]
    exact of_endJoint (by rwa [State.modJoint_cell]) holds .abortedEstop

end State.Unstarted

/-! ## ABORTED_ESTOP for every started head, in turn (R157) -/

/-- The heads act in turn: what the others keep until the turn of head `k`, what its turn makes of that, and what all keep
from then on. -/
theorem State.eachHead_reaches {Q R : State → Prop} {s : State} {test : State → Head → Bool}
    {act : Head → State → State} (k : Head) (start : Q s)
    (before : ∀ h u, h ≠ k → Q u → test u h = true → Q (act h u))
    (turn : ∀ u, Q u → R (if test u k then act k u else u)) (after : ∀ h u, R u → test u h = true → R (act h u)) :
    R (s.eachHead test act) := by
  have keeps {P : State → Prop} {h : Head} {u : State} (p : P u) (acts : test u h = true → P (act h u)) :
      P (if test u h then act h u else u) := by
    split
    · next c => exact acts c
    · exact p
  have behind (hs : List Head) : ∀ u, R u → R (hs.foldl (fun u h => if test u h then act h u else u) u) :=
    fun _ r => foldl_keeps hs r fun u h r => keeps r (after h u r)
  have among (hs : List Head) :
      k ∈ hs → ∀ u, Q u → R (hs.foldl (fun u h => if test u h then act h u else u) u) := by
    induction hs with
    | nil => intro inside; cases inside
    | cons h rest ih =>
      intro inside u q
      by_cases same : h = k
      · subst same
        exact behind rest _ (turn u q)
      · exact ih ((List.mem_cons.1 inside).resolve_left (Ne.symm same)) _ (keeps q (before h u same q))
  exact among Head.all (Head.mem_all k) s start

/-- Behind the joints' part of an ESTOP assertion no head is started, where joints match head states. -/
theorem State.estopJoints_unstarted {s : State} (outside : s.cell.mode ≠ .run) (joints : s.JointsOk) (k : Head) :
    s.estopJoints.Unstarted k := by
  cases started : (s.head k).mode.started with
  | false => exact State.eachHead_keeps ⟨outside, started⟩ fun h u ok _ => ok.takeCause h rfl
  | true =>
    have busy : (s.head k).mode ≠ .idle := fun idle => by rw [idle] at started; cases started
    obtain ⟨active, recorded⟩ := joints k
    have listed := List.mem_cons_of_mem .armed ((HeadMode.started_iff _).1 started)
    obtain ⟨j, holds⟩ := Option.isSome_iff_exists.1 (active.2 listed)
    refine State.eachHead_reaches (Q := fun u => u.cell.mode ≠ .run ∧ u.head k = s.head k) k ⟨outside, rfl⟩ ?_ ?_ ?_
    · rintro h u ne ⟨mode, same⟩ -
      refine ⟨by rwa [State.takeCause_cell], ?_⟩
      rw [State.head_takeCause_other rfl ne.symm (by rw [same]; exact busy), same]
    · rintro u ⟨mode, same⟩
      rw [← same] at started holds recorded
      rw [if_pos started]
      exact State.Unstarted.of_abortedEstop mode started holds fun stopping => recorded stopping j holds
    · exact fun h u ok _ => ok.takeCause h rfl

/-- A head that is neither started nor IDLE is left as it was. -/
theorem State.head_estopJoints {s : State} {k : Head} (unstarted : (s.head k).mode.started = false)
    (busy : (s.head k).mode ≠ .idle) : s.estopJoints.head k = s.head k := by
  refine State.eachHead_keeps (P := fun u => u.head k = s.head k) rfl fun h u same started => ?_
  have ne : k ≠ h := by
    rintro rfl
    rw [same, unstarted] at started
    cases started
  exact (State.head_takeCause_other rfl ne (by rw [same]; exact busy)).trans same

/-- The joints' part of an ESTOP assertion touches no stage. -/
@[simp] theorem State.estopJoints_stages (s : State) : s.estopJoints.stages = s.stages := by
  refine State.eachHead_keeps (P := fun u => u.stages = s.stages) rfl fun h u same _ => ?_
  rcases u.takeCause_atOnce h (o := .abortedEstop) rfl with q | q | q
  · rwa [q]
  · rw [q, ((SameAround.keepsJobMoves u).endRecorded (.refl u) h).stages, same]
  · rw [q, (State.endJoint_around _ h _).stages, State.modJoint_eq, State.setHead_stages, same]

/-! ## The event (R173) -/

/-- The event has been offered: it stands in the queue, or the queue is full. -/
def ReportRec.Offered (e : Event) (r : ReportRec) : Prop := e ∈ r.events ∨ 16 ≤ r.events.length

/-- The offer of an event places it, or finds the queue full. -/
theorem ReportRec.offered_offer (r : ReportRec) (e : Event) : (r.offer e).Offered e := by
  rcases r.offer_cases e with ⟨_, q⟩ | ⟨full, q⟩ <;> rw [q]
  · exact .inl (by simp)
  · exact .inr full

/-- No later offer takes an event out of the queue. -/
theorem ReportRec.Offered.offer {e : Event} {r : ReportRec} (ok : r.Offered e) (next : Event) :
    (r.offer next).Offered e := by
  rcases r.offer_cases next with ⟨_, q⟩ | ⟨full, q⟩ <;> rw [q]
  · rcases ok with placed | full
    · exact .inl (by simp [placed])
    · exact .inr (by simp; omega)
  · exact ok

namespace ReportRec.Offered

variable {e : Event} {s : State}

theorem endCore (ok : s.report.Offered e) (h : Head) (o : JointOutcome) : (s.endCore h o).report.Offered e := by
  have take {u : State} (ok : u.report.Offered e) (tag : Nat) (f : IndexEntry → IndexEntry) :
      (u.trackerTake tag f).report.Offered e := by
    unfold State.trackerTake
    split
    · exact ok
    · dsimp only
      split
      · exact ok.offer _
      · exact ok
  unfold State.endCore
  dsimp only
  split
  · exact ok
  · next j _ =>
    have taken := take (u := s.placeResult (resultOf s.now h (s.head h).tuning.driftCount j o)) ok j.job.indexTag
      (·.endJoint o)
    change ReportRec.Offered e (State.report (if _ then _ else _))
    split
    · exact taken.offer _
    · exact taken

/-- The job manager's moves take no event out of the queue. -/
theorem keepsJobMoves (e : Event) : KeepsJobMoves fun s => s.report.Offered e where
  activates ok _ _ := ok
  loads ok := ok
  starts ok _ := ok
  ends ok := ok.endCore _ _
  queues ok := ok
  suspends ok := ok

theorem estopJoints (ok : s.report.Offered e) : s.estopJoints.report.Offered e :=
  State.eachHead_keeps (P := fun u => u.report.Offered e) ok fun h _ ok _ =>
    (keepsJobMoves e).takeCause (fun ok => ok) (fun ok _ => ok) ok h .abortedEstop

theorem estopStages (ok : s.report.Offered e) : s.estopStages.report.Offered e := by
  have stage {u : State} (ok : u.report.Offered e) (g : Stage) : (u.estopStage g).report.Offered e := by
    rcases u.estopStage_only g with q | ⟨_, q⟩ <;> rw [q]
    · exact ok
    · exact ok.offer _
  exact stage (stage ok .s0) .s1

end ReportRec.Offered

/-! ## The assertion, in either order of its parts (R157) -/

/-- Each stage is turned off as ESTOP turns it off. -/
theorem State.stage_estopActs (s : State) (stagesFirst : Bool) (place : EventPlace) (g : Stage) :
    (s.estopActs stagesFirst place).stage g = (s.stage g).estopped := by
  have joints (u : State) : u.estopJoints.stage g = u.stage g := congrArg (·.get g) u.estopJoints_stages
  unfold State.estopActs
  cases stagesFirst <;> cases place <;> simp [joints]

/-- The heads are those that the joints' part leaves, of a state with the heads and the cell as they were. -/
theorem State.estopActs_heads (s : State) (stagesFirst : Bool) (place : EventPlace) :
    ∃ u : State, u.heads = s.heads ∧ u.cell = s.cell ∧
      (s.estopActs stagesFirst place).heads = u.estopJoints.heads := by
  unfold State.estopActs
  cases stagesFirst
  · refine ⟨if place = .first then s.raise (.estop true) else s, ?_⟩
    cases place <;> simp
  · let first : State := if place = .first then s.raise (.estop true) else s
    refine ⟨if place = .between then first.estopStages.raise (.estop true) else first.estopStages, ?_⟩
    cases place <;> simp [first]

/-- The ESTOP event is offered wherever it stands. -/
theorem State.estopActs_offered (s : State) (stagesFirst : Bool) (place : EventPlace) :
    (s.estopActs stagesFirst place).report.Offered (.estop true) := by
  have offered (u : State) : (u.raise (.estop true)).report.Offered (.estop true) := u.report.offered_offer _
  unfold State.estopActs
  cases stagesFirst <;> cases place <;> simp only [reduceCtorEq, Bool.false_eq_true, if_true, if_false]
  · exact (offered _).estopJoints.estopStages
  · exact (offered _).estopStages
  · exact offered _
  · exact (offered _).estopStages.estopJoints
  · exact (offered _).estopJoints
  · exact offered _

/-- Settles O44: the parts of an assertion are `State.stage_estopActs`, `State.estopJoints_unstarted` with
`State.head_estopJoints`, and `State.estopActs_offered`; a release is its level taken and its event. -/
theorem estopTakenInterlocks : Obligations.EstopTakenInterlocks := by
  intro e s run filter known
  refine ⟨fun low high => ?_, fun high low => change_taken (i := .estop) run filter high low _⟩
  let u : State := (s.advance e).setInput .estop known
  let v : State := u.chose.estopMode
  have asserts : exec .estopAsserted s = .next u.estopTaken := change_taken (i := .estop) run filter low high _
  have stage (g : Stage) : u.estopTaken.stage g = (s.stage g).estopped := v.stage_estopActs _ _ g
  refine ⟨_, asserts, u.estopTaken_cell, fun g => ?_, fun joints h => ?_, v.estopActs_offered _ _⟩
  · rw [stage]
    refine ⟨?_, fun ready => ?_, ?_, ?_⟩
    · rintro (mode | mode) <;> simp [StageRec.estopped, mode, StageRec.turnedOff]
    · simp [StageRec.estopped, ready]
    · rintro (mode | mode) <;> simp [StageRec.estopped, mode, StageRec.turnedOff]
    · rintro (mode | mode) <;> simp [StageRec.estopped, mode]
  · obtain ⟨w, heads, cell, ends⟩ :=
      v.estopActs_heads (Config.stagesOffFirst u.choices) (Config.estopEventPlace u.choices)
    have same (k : Head) : w.head k = s.head k := congrArg (·.get k) heads
    have ended : u.estopTaken.head h = w.estopJoints.head h := congrArg (·.get h) ends
    have outside : w.cell.mode ≠ .run := by rw [cell]; nofun
    have joints' : w.JointsOk := fun k => by rw [same]; exact joints k
    rw [ended]
    refine ⟨fun started => ?_, fun stays => ?_⟩
    · have off := (State.estopJoints_unstarted outside joints' h).2
      rw [(HeadMode.started_iff _).2 started] at off
      cases off
    · rw [← same] at stays ⊢
      refine State.head_estopJoints ?_ ?_ <;> rcases stays with mode | mode | mode <;> simp [mode, HeadMode.started]

end Sys2Proof.Machine
end

section
/-! The report block over every step (R168 to R175). A condition on the report block and on which heads have a joint is
touched by few moves: an event raised, a job activated, a joint ended, a fetch, and a reset. `KeepsReportMoves` names
them, and the walk through the commands is made once for every condition they keep; the result places and the event queue with
ATTN are two such conditions. -/

namespace Sys2Proof.Machine

/-! ## The moves -/

/-- `t` follows `s` with the report block as it was and a joint on the same heads. -/
structure SameReport (s t : State) : Prop where
  report : t.report = s.report
  joints : ∀ h, (t.head h).joint.isSome = (s.head h).joint.isSome

/-- The moves that touch the report block or which heads have a joint keep `P`, and `P` reads nothing else. A head
takes a joint where a result place is free (R8), and a joint that ends leaves its result (R18). -/
structure KeepsReportMoves (P : State → Prop) : Prop where
  same : ∀ {s t}, P s → SameReport s t → P t
  offers : ∀ {s} e, P s → P (s.raise e)
  activates : ∀ {s h r}, P s → s.report.results.length + s.activeJoints < 32 → P (s.setHead h r)
  ends : ∀ {s h r} x, P s → (s.head h).joint.isSome = true → r.joint = none → P ((s.placeResult x).setHead h r)
  dropsResults : ∀ {s}, P s → P { s with report := s.report.dropResults }
  dropsEvents : ∀ {s}, P s → P { s with report := s.report.dropEvents }
  resets : ∀ (s : State) kind strap store, P (s.resetPart kind strap store)

/-- An activation finds a result place free (R8). -/
theorem State.canActivate_room {s : State} {h : Head} (can : s.canActivate h = true) :
    s.report.results.length + s.activeJoints < 32 :=
  of_decide_eq_true (Bool.and_eq_true_iff.1 can).2

/-- The tracker's work and a head's record touch nothing in common. -/
theorem State.trackerTake_setHead (s : State) (h : Head) (r : HeadRec) (tag : Nat) (f : IndexEntry → IndexEntry) :
    (s.setHead h r).trackerTake tag f = (s.trackerTake tag f).setHead h r := by
  unfold State.trackerTake
  rw [State.setHead_tracker]
  split
  · rfl
  · dsimp only
    split <;> rfl

/-- Every next state an outcome answers meets `P`. -/
def Answers (P : State → Prop) (o : Host.Outcome State Fault Refusal) : Prop := ∀ t, o = .next t → P t

theorem answers_next {P : State → Prop} {s : State} (p : P s) : Answers P (.next s) := by
  rintro t ⟨rfl⟩; exact p

/-- What the owner of a head's request keeps, the request keeps: it names its head, or is refused. -/
theorem withHead_keeps {P : State → Prop} {s : State} (p : P s) (n : Nat) {owner : Head → State → State × Answer}
    (acts : ∀ h, P (owner h s).1) : P (withHead n owner s).1 := by
  rcases withHead_cases n owner s with ⟨h, _, q⟩ | ⟨_, q⟩
  · rw [q]; exact acts h
  · rw [q]; exact p

/-- What the owner of a stage's request keeps, the request keeps. -/
theorem withStage_keeps {P : State → Prop} {s : State} (p : P s) (n : Nat) {owner : Stage → State → State × Answer}
    (acts : ∀ g, P (owner g s).1) : P (withStage n owner s).1 := by
  rcases withStage_cases n owner s with ⟨g, _, q⟩ | ⟨_, q⟩
  · rw [q]; exact acts g
  · rw [q]; exact p

/-- READ_RECIPE changes nothing. -/
theorem reqReadRecipe_state (entry : Nat) (s : State) : (reqReadRecipe entry s).1 = s := by
  unfold reqReadRecipe
  split
  · rfl
  · split <;> rfl

namespace KeepsReportMoves

variable {P : State → Prop} {s : State} (k : KeepsReportMoves P)

include k

/-- An update of anything but the report block and the heads. -/
theorem around {t : State} (p : P s) (report : t.report = s.report) (heads : t.heads = s.heads) : P t :=
  k.same p ⟨report, fun h => by rw [State.head, heads, State.head]⟩

theorem setStore (p : P s) (t : StoreRec) : P { s with store := t } := k.around p rfl rfl
theorem setCell (p : P s) (c : CellRec) : P { s with cell := c } := k.around p rfl rfl
theorem setLink (p : P s) (l : LinkRec) : P { s with link := l } := k.around p rfl rfl
theorem setTracker (p : P s) (t : List IndexEntry) : P { s with tracker := t } := k.around p rfl rfl
theorem setStage (p : P s) (g : Stage) (r : StageRec) : P (s.setStage g r) := k.around p rfl rfl
theorem pushReply (p : P s) (r : Reply) : P (s.pushReply r) := k.around p rfl rfl
theorem chose (p : P s) : P s.chose := k.around p rfl rfl
theorem advance (p : P s) (time : Nat) : P (s.advance time) := k.around p rfl rfl

theorem setHead (p : P s) {h : Head} {r : HeadRec} (joint : r.joint.isSome = (s.head h).joint.isSome) :
    P (s.setHead h r) := by
  refine k.same p ⟨rfl, fun i => ?_⟩
  rw [State.head_setHead]
  split
  · next here => rw [joint, here]
  · rfl

/-- A change of a head that leaves it with a joint or without one. (`by` waits until `f` is known.) -/
theorem modHead (p : P s) (h : Head) {f : HeadRec → HeadRec}
    (joint : ∀ r, (f r).joint.isSome = r.joint.isSome) : P (s.modHead h f) :=
  k.setHead p (joint _)

theorem modJoint (p : P s) (h : Head) (f : Joint → Joint) : P (s.modJoint h f) :=
  k.modHead p h fun _ => Option.isSome_map

/-- A joint replaced by another. -/
theorem putJoint (p : P s) {h : Head} {j : Joint} (active : (s.head h).joint = some j) {r : HeadRec}
    (joint : r.joint.isSome = true) : P (s.setHead h r) :=
  k.setHead p (by rw [joint, active]; rfl)

/-! ## The job manager (R8 to R18, R23) -/

theorem trackerTake (p : P s) (tag : Nat) (f : IndexEntry → IndexEntry) : P (s.trackerTake tag f) := by
  unfold State.trackerTake
  split
  · exact p
  · dsimp only
    split
    · exact k.offers _ (k.setTracker p _)
    · exact k.setTracker p _

theorem endCore (p : P s) (h : Head) (o : JointOutcome) : P (s.endCore h o) := by
  cases active : (s.head h).joint with
  | none => rwa [State.endCore_none active]
  | some j =>
    have placed := k.ends (r := (s.head h).endJoint o) (resultOf s.now h (s.head h).tuning.driftCount j o) p
      (by rw [active]; rfl) rfl
    have taken := k.trackerTake placed j.job.indexTag (·.endJoint o)
    rw [State.trackerTake_setHead] at taken
    simp only [State.endCore, active]
    split
    · exact k.setStore (k.offers (.headFault h) taken) _
    · exact k.setStore taken _

theorem jobMoves : KeepsJobMoves P where
  activates p can _ := k.activates p (State.canActivate_room can)
  loads p := k.modJoint p _ _
  starts p _ := k.setHead p Option.isSome_map
  ends p := k.endCore p _ _
  queues p := k.setStore p _
  suspends p := k.setStore p _

theorem retry (p : P s) : P s.retry := k.jobMoves.retry p

theorem startCheck (p : P s) (h : Head) : P (s.startCheck h) := k.jobMoves.startCheck p h

theorem startChecks (p : P s) (hs : List Head) : P (s.startChecks hs) := k.jobMoves.startChecks p hs

theorem stopJoint (p : P s) (h : Head) : P (s.stopJoint h) := by
  rw [State.stopJoint_eq, State.cutSegment_eq]
  exact k.setHead (s := s.setStage _ _) (k.setStage p _ _) rfl

theorem takeCause (p : P s) (h : Head) (o : JointOutcome) : P (s.takeCause h o) :=
  k.jobMoves.takeCause (fun p => k.modJoint p _ _) (fun p _ => k.stopJoint p _) p h o

theorem takeCause? (p : P s) (h : Head) (o : Option JointOutcome) : P (s.takeCause? h o) := by
  cases o with
  | none => exact p
  | some o => exact k.takeCause p h o

/-- A cause taken for each head that meets a test, in turn. -/
theorem takeCauses (p : P s) (test : State → Head → Bool) (o : JointOutcome) :
    P (s.eachHead test fun h s => s.takeCause h o) :=
  State.eachHead_keeps p fun h _ p _ => k.takeCause p h o

theorem serveAll (p : P s) : P s.serveAll := k.jobMoves.serveWaiting (fun p _ => k.setStore p _) _ p

theorem leaveJobs (p : P s) (jobs : List Job) : P (s.leaveJobs jobs) :=
  foldl_keeps jobs p fun _ _ p => k.trackerTake p _ _

theorem flushHead (p : P s) (h : Head) : P (s.flushHead h) := k.leaveJobs (k.modHead p h fun _ => by rfl) _

/-! ## The slot scheduler (R74 to R95) -/

theorem decideSlot (p : P s) (g : Stage) : P (s.decideSlot g) := by
  obtain ⟨r, q | ⟨h, d, sent, q⟩, _⟩ := s.decideSlot_only g
  · rw [q]; exact k.setStage p g _
  · rw [q]; exact k.modJoint (s := s.setStage g r) (k.setStage p g _) h _

theorem decideOrDefer (p : P s) (g : Stage) : P (s.decideOrDefer g) := by
  rcases s.decideOrDefer_cases g with ⟨_, q⟩ | ⟨_, q⟩
  · rw [q]; exact k.setStage p g _
  · rw [q]; exact k.decideSlot p g

theorem decideDeferred (p : P s) (g : Stage) : P (s.decideDeferred g) := by
  unfold State.decideDeferred
  split
  · exact k.decideSlot (k.setStage p g _) g
  · exact p

theorem dropOvertaken (p : P s) (g : Stage) : P (s.dropOvertaken g) := by
  unfold State.dropOvertaken
  split
  · exact k.setStage p g _
  · exact p

theorem adoptPending (p : P s) (g : Stage) : P (s.adoptPending g) := by
  rcases s.adoptPending_cases g with ⟨_, _, q⟩ | ⟨_, q⟩
  · rw [q]; exact k.offers _ (k.setStage p g _)
  · rwa [q]

theorem startSlot (p : P s) (g : Stage) (n t : Nat) : P (s.startSlot g n t) := by
  unfold State.startSlot
  split
  · split
    · exact k.decideOrDefer (k.setStage p g _) g
    · exact p
  · exact p

theorem startFrame (p : P s) (g : Stage) (t : Nat) : P (s.startFrame g t) := by
  unfold State.startFrame
  split
  · split
    · exact k.startSlot p g _ t
    · exact p
  · exact p

theorem slotExpiry (p : P s) (g : Stage) (run : Running) : P (s.slotExpiry g run) := by
  have dropped := k.dropOvertaken p g
  unfold State.slotExpiry State.nextSlot
  split
  · split
    · exact k.startSlot dropped g _ _
    · exact k.startFrame (k.adoptPending dropped g) g _
  · exact dropped

theorem splitExpiry (p : P s) (g : Stage) (run : Running) (t : Nat) : P (s.splitExpiry g run t) :=
  k.decideOrDefer (k.setStage (k.dropOvertaken p g) g _) g

theorem adoptNow (p : P s) (g : Stage) (f : List Slot) : P (s.adoptNow g f) := by
  have adopted := k.offers (.frameAdopted g)
    (k.setStage p g { s.stage g with active := some f, pendingFrame := none })
  unfold State.adoptNow
  dsimp only
  split
  · exact k.startFrame adopted g _
  · exact adopted

/-! ## The stage interface (R101 to R113) -/

theorem enterReady (p : P s) (g : Stage) (checksFirst : Bool) : P (s.enterReady g checksFirst) := by
  unfold State.enterReady
  dsimp only
  generalize ready : State.raise (s.modStage g _) _ = u
  have entered : P u := ready ▸ k.offers _ (k.setStage p g _)
  split
  · exact k.startFrame (k.startChecks entered _) g _
  · exact k.startChecks (k.startFrame entered g _) _

theorem stopIfReady (p : P s) (g : Stage) (before : StageMode) : P (s.stopIfReady g before) := by
  rcases s.stopIfReady_cases g before with ⟨_, q⟩ | ⟨_, q⟩
  · rw [q]; exact k.adoptPending (k.setStage p g _) g
  · rwa [q]

theorem enterFault (p : P s) (g : Stage) (cause : FaultCause) (code : Nat) : P (s.enterFault g cause code) := by
  unfold State.enterFault State.faultMembers
  rw [State.faultStage_eq]
  exact k.offers _ (k.takeCauses (k.stopIfReady (k.setStage p g _) g _) _ _)

theorem turnOff (p : P s) (g : Stage) : P (s.turnOff g) := by
  rw [State.turnOff_eq]
  exact k.stopIfReady (k.setStage p g _) g _

theorem estopStage (p : P s) (g : Stage) : P (s.estopStage g) := by
  rcases s.estopStage_cases g with ⟨_, q⟩ | ⟨_, q⟩
  · rw [q]; exact k.turnOff p g
  · rwa [q]

theorem busReported (p : P s) (g : Stage) (ready : Bool) : P (s.busReported g ready) := by
  unfold State.busReported
  dsimp only
  split
  · exact k.enterFault (k.setStage p g _) g _ _
  · exact k.setStage p g _

theorem tripReported (p : P s) (g : Stage) (code : Nat) : P (s.tripReported g code) := by
  unfold State.tripReported
  split
  · exact k.enterFault p g _ _
  · exact k.enterFault p g _ _
  · exact p
  · exact p

theorem settleExpired (p : P s) (g : Stage) (checksFirst : Bool) : P (s.settleExpired g checksFirst) := by
  unfold State.settleExpired
  split
  · exact k.enterReady p g _
  · exact k.enterFault p g _ _

/-! ## The work of a segment report (R34, R41, R111, R124 to R132) -/

theorem raise? (p : P s) (e : Option Event) : P (s.raise? e) := by
  cases e with
  | none => exact p
  | some e => exact k.offers e p

theorem tunerTakes (p : P s) (h : Head) (rep : SegReport) : P (s.tunerTakes h rep).state := by
  unfold State.tunerTakes
  dsimp only
  split
  · split
    · exact k.setHead p Option.isSome_map
    · unfold State.searchStep
      dsimp only
      split
      · exact k.setHead p rfl
      · exact k.setHead p rfl
  · split
    · exact p
    · exact k.setHead p rfl
  · exact p

theorem enterHeating (p : P s) (h : Head) : P (s.enterHeating h).1 := by
  unfold State.enterHeating
  split
  · next active => exact k.putJoint p active rfl
  · exact p

theorem heatChecks (p : P s) (h : Head) (heating : Bool) : P (s.heatChecks h heating).1 := by
  unfold State.heatChecks
  split
  · exact p
  · split
    · split
      · next active => exact k.putJoint p active rfl
      · exact p
    · exact p

theorem takeTuner (p : P s) (h : Head) (reply : TunerReply) : P (s.takeTuner h reply) := by
  cases reply with
  | nothing => exact p
  | lock => exact k.takeCause? (k.enterHeating p h) h _
  | cause o => exact k.takeCause p h o

theorem tunerThenHeat (p : P s) (h : Head) (heating : Bool) (reply : TunerReply) :
    P (s.tunerThenHeat h heating reply) := by
  cases reply with
  | nothing => exact k.takeCause? (k.heatChecks p h heating) h _
  | lock =>
    simp only [State.tunerThenHeat]
    split
    · exact k.takeCause (k.enterHeating p h) h _
    · exact k.takeCause? (k.enterHeating p h) h _
  | cause o => exact k.takeCause p h o

theorem flagPassedCeiling (p : P s) (h : Head) (w : TunerWork) : P (s.flagPassedCeiling h w) := by
  unfold State.flagPassedCeiling
  split
  · exact k.modHead p h fun _ => by rfl
  · exact p

theorem reportWork (p : P s) (h : Head) (rep : SegReport) (order : ReportOrder) (eventFirst : Bool) :
    P (s.reportWork h rep order eventFirst) := by
  have tuned {u : State} (p : P u) (e : Option Event) : P ((u.tunerTakes h rep).state.raise? e) :=
    k.raise? (k.tunerTakes p h rep) e
  cases order with
  | tunerCauseFirst => exact k.raise? (k.tunerThenHeat (tuned p _) h _ _) _
  | tunerActsFirst =>
    have checked (heating : Bool) (e : Option Event) := k.heatChecks (tuned p e) h heating
    simp only [State.reportWork]
    split
    · exact k.raise? (k.takeCause (checked _ _) h _) _
    · exact k.raise? (k.takeTuner (checked _ _) h _) _
  | heatFirst =>
    have checked (heating : Bool) := k.heatChecks p h heating
    simp only [State.reportWork]
    split
    · exact k.flagPassedCeiling (k.takeCause (checked _) h _) h _
    · exact k.raise? (k.takeTuner (tuned (checked _) _) h _) _

theorem handReport (p : P s) (h : Head) (rep : SegReport) (ordered : Nat) (order : ReportOrder) (eventFirst : Bool) :
    P (s.handReport h rep ordered order eventFirst) := by
  have counted : P (s.countReport h rep ordered) := k.modJoint p h _
  unfold State.handReport
  split
  · exact k.reportWork counted h rep order eventFirst
  · exact k.reportWork counted h rep order eventFirst
  · exact k.jobMoves.endRecorded counted h
  · exact p

theorem segmentReported (p : P s) (g : Stage) (rep : SegReport) (order : ReportOrder) (eventFirst : Bool) :
    P (s.segmentReported g rep order eventFirst) := by
  unfold State.segmentReported
  split
  · exact p
  · next seg _ =>
    have dropped := k.setStage p g { s.stage g with segment := none, completionTimer := none }
    have handed := k.handReport dropped seg.head rep seg.duration order eventFirst
    dsimp only
    split
    · exact k.enterFault handed g _ _
    · exact k.decideDeferred handed g

/-! ## The phase timers and the samples (R38, R42, R144, R147) -/

theorem phaseExits (p : P s) (h : Head) : P (s.phaseExits h) := by
  unfold State.phaseExits
  split
  · next active => exact k.takeCause? (k.putJoint p active rfl) h _
  · exact p

theorem durationExpired (p : P s) (h : Head) : P (s.durationExpired h) := by
  unfold State.durationExpired
  split
  · split
    · exact k.modJoint p h _
    · exact k.phaseExits p h
  · exact p

theorem heatSample (p : P s) (h : Head) : P (s.heatSample h) := by
  unfold State.heatSample
  split
  · next active _ =>
    dsimp only
    split
    · exact k.phaseExits (k.putJoint p active rfl) h
    · exact k.putJoint p active rfl
  · exact p

theorem checkSample (p : P s) (h : Head) : P (s.checkSample h) := by
  unfold State.checkSample
  split
  · exact k.takeCause p h _
  · split
    · exact k.heatSample p h
    · exact p

theorem sample (p : P s) (h : Head) (m : Sample) : P (s.sample h m) := by
  have taken (r : HeadRec) (now v : Nat) (isUnder isOver : Bool) :
      (r.takeSample now v isUnder isOver).joint.isSome = r.joint.isSome := by
    cases active : r.joint <;> simp [HeadRec.takeSample, active]
  unfold State.sample
  split
  · dsimp only
    split
    · exact k.modHead p h fun _ => by rfl
    · exact k.checkSample (k.modHead (k.modHead p h fun _ => by rfl) h fun r => taken r _ _ _ _) h
  · exact p

/-! ## The interlock block (R152 to R164) -/

theorem setInput (p : P s) (i : LineInput) (x : Input) : P (s.setInput i x) := by
  cases i with
  | estop => exact k.setCell p _
  | motion => exact k.setCell p _
  | key => exact k.setCell p _
  | clamp h => exact k.setHead p rfl
  | flow h => exact k.setHead p rfl

theorem takeLevel (p : P s) (i : LineInput) : P (s.takeLevel i) := k.setInput p i _

theorem takeChange (p : P s) (i : LineInput) (level : Level) {act : State → State}
    (acts : ∀ u : State, P u → P (act u)) : P (s.takeChange i level act) := by
  rcases s.takeChange_cases i level act with ⟨_, q⟩ | ⟨_, q⟩
  · rw [q]; exact k.takeLevel p i
  · rw [q]; exact acts _ (k.takeLevel p i)

/-- An event raised where a test holds. -/
theorem raiseAt (p : P s) (test : Prop) [Decidable test] (e : Event) : P (if test then s.raise e else s) := by
  split
  · exact k.offers e p
  · exact p

/-- The parts of an ESTOP assertion, in either order and with the event at any of its places (R157). -/
theorem estopTaken (p : P s) : P s.estopTaken := by
  have stages {u : State} (p : P u) : P u.estopStages := k.estopStage (k.estopStage p .s0) .s1
  have joints {u : State} (p : P u) : P u.estopJoints := k.takeCauses p _ .abortedEstop
  have interlocked : P s.chose.estopMode := k.setCell (k.chose p) _
  unfold State.estopTaken State.estopAssert State.estopActs
  cases Config.stagesOffFirst s.choices
  · exact k.raiseAt (stages (k.raiseAt (joints (k.raiseAt interlocked _ _)) _ _)) _ _
  · exact k.raiseAt (joints (k.raiseAt (stages (k.raiseAt interlocked _ _)) _ _)) _ _

theorem motionFlush (p : P s) : P s.motionFlush := by
  unfold State.motionFlush
  split
  · exact foldl_keeps _ p fun _ h p => k.flushHead p h
  · exact p

theorem motionAssert (p : P s) : P s.motionAssert := by
  unfold State.motionAssert
  split
  · exact k.takeCauses (k.motionFlush (k.offers _ (k.setCell p _))) _ .abortedMotion
  · exact k.offers _ (k.setCell p _)

theorem clampFell (p : P s) (h : Head) : P (s.clampFell h) := k.raiseAt (k.takeCause p h _) _ _

theorem clampRose (p : P s) (h : Head) : P (s.clampRose h) := by
  have seen : P (s.clampSeen h) := by
    unfold State.clampSeen
    split
    · exact k.modJoint p h _
    · exact p
  exact k.raiseAt (k.startCheck seen h) _ _

theorem flowFell (p : P s) (h : Head) : P (s.flowFell h) := by
  unfold State.flowFell
  dsimp only
  split
  · exact k.modHead (k.offers _ p) h fun _ => by rfl
  · exact k.offers _ p

theorem flowRose (p : P s) (h : Head) : P (s.flowRose h) := k.startCheck (k.modHead (k.offers _ p) h fun _ => by rfl) h

theorem graceExpired (p : P s) (h : Head) : P (s.graceExpired h) :=
  k.offers _ (k.takeCause (k.modHead p h fun _ => by rfl) h _)

/-! ## The store and the release of the RESET line (R180, R182, R195) -/

theorem storeDone (p : P s) (t : StoreRec) (e : Event) : P (s.storeDone t e) := by
  unfold State.storeDone
  dsimp only
  split
  · exact k.serveAll (k.setStore p _)
  · exact k.serveAll (k.offers _ (k.setStore p _))

theorem programDone (p : P s) (passed : Bool) : P (s.programDone passed) := by
  unfold State.programDone
  split
  · exact k.storeDone p _ _
  · exact p
  · exact p

theorem eraseDone (p : P s) (passed : Bool) : P (s.eraseDone passed) := by
  unfold State.eraseDone
  split
  · exact k.storeDone p _ _
  · exact p
  · exact p

theorem suspendEnds (p : P s) : P s.suspendEnds := k.setStore (k.serveAll (k.setStore p _)) _

theorem leaveReset (p : P s) : P s.leaveReset :=
  k.same p ⟨rfl, fun h => by simp [State.head, State.leaveReset]⟩

/-! ## Requests (R191) -/

theorem reqSetCell (p : P s) (items : List Item) : P (Machine.reqSetCell items s).1 := by
  unfold Machine.reqSetCell
  split
  · exact k.setCell p _
  · exact p

theorem enableHead (p : P s) (h : Head) (enable : Option Nat) : P (s.enableHead h enable) := by
  unfold State.enableHead
  split
  · unfold State.turnHeadOff
    split
    · exact k.modHead (k.flushHead p h) h fun _ => by rfl
    · exact p
  · unfold State.turnHeadOn
    split
    · exact k.retry (k.modHead p h fun _ => by rfl)
    · exact p
  · exact p

theorem reqSetHead (p : P s) (head : Nat) (items : List Item) : P (Machine.reqSetHead head items s).1 := by
  refine withHead_keeps p head fun h => ?_
  dsimp only
  split
  · split
    · exact p
    · exact k.enableHead (k.modHead p h fun _ => by rfl) h _
  · exact p

theorem reqSetStage (p : P s) (stage : Nat) (items : List Item) : P (Machine.reqSetStage stage items s).1 := by
  refine withStage_keeps p stage fun g => ?_
  split
  · split
    · exact k.setStage p g _
    · exact p
  · exact p

theorem reqLoadFrame (p : P s) (stage : Nat) (slots : List RawSlot) : P (Machine.reqLoadFrame stage slots s).1 := by
  refine withStage_keeps p stage fun g => ?_
  split
  · exact p
  · split
    · exact k.setStage p g _
    · exact k.adoptNow p g _

theorem reqSubmitJob (p : P s) (head : Nat) (raw : RawJob) : P (Machine.reqSubmitJob head raw s).1 := by
  refine withHead_keeps p head fun h => ?_
  split
  · exact p
  · split
    · exact p
    · next job _ _ _ =>
      have queued : P (s.modHead h fun r => { r with queue := r.queue ++ [job] }) := k.modHead p h fun _ => by rfl
      exact k.retry (k.setTracker queued _)

theorem reqCancelJob (p : P s) (head tag : Nat) : P (Machine.reqCancelJob head tag s).1 := by
  refine withHead_keeps p head fun h => ?_
  split
  · exact p
  · split
    · exact k.leaveJobs (k.modHead p h fun _ => by rfl) _
    · split
      · split
        · exact k.takeCause p h _
        · exact p
      · exact p

theorem reqStartHeads (p : P s) (set : Byte) : P (Machine.reqStartHeads set s).1 :=
  foldl_keeps _ p fun _ h p => k.startCheck (k.modJoint p h _) h

theorem reqHold (p : P s) : P (Machine.reqHold s).1 := by
  unfold Machine.reqHold
  split
  · exact k.setCell p _
  · exact p
  · exact p

theorem reqResume (p : P s) : P (Machine.reqResume s).1 := by
  unfold Machine.reqResume
  split
  · exact p
  · split
    · exact p
    · exact k.startChecks (k.setCell p _) _
  · exact p

theorem reqPowerOn (p : P s) (stage : Nat) : P (Machine.reqPowerOn stage s).1 := by
  refine withStage_keeps p stage fun g => ?_
  split
  · split
    · rw [State.powerUp_eq]; exact k.setStage p g _
    · exact p
  all_goals exact p

theorem reqPowerOff (p : P s) (stage : Nat) : P (Machine.reqPowerOff stage s).1 := by
  have down (g : Stage) : P (s.powerDown g).1 := by
    unfold State.powerDown
    split
    · exact p
    · exact k.turnOff p g
  refine withStage_keeps p stage fun g => ?_
  split
  · exact p
  · exact down g
  · exact down g
  · exact p

theorem reqPower (p : P s) (stage order : Nat) : P (Machine.reqPower stage order s).1 := by
  unfold Machine.reqPower
  split
  · exact k.reqPowerOff p stage
  · exact k.reqPowerOn p stage
  · exact p

theorem reqClearFaultHead (p : P s) (head : Nat) : P (Machine.reqClearFaultHead head s).1 := by
  refine withHead_keeps p head fun h => ?_
  split
  · exact p
  · exact k.retry (k.modHead p h fun _ => by rfl)
  · exact k.modHead p h fun _ => by rfl

theorem reqClearFaultStage (p : P s) (stage : Nat) : P (Machine.reqClearFaultStage stage s).1 := by
  refine withStage_keeps p stage fun g => ?_
  split
  · exact k.setStage p g _
  · exact p

theorem reqClearFaultDevice (p : P s) : P (Machine.reqClearFaultDevice s).1 := by
  unfold Machine.reqClearFaultDevice
  split
  · exact p
  · exact p
  · split
    · exact k.setCell p _
    · exact p

theorem reqClearFault (p : P s) (target number : Nat) : P (Machine.reqClearFault target number s).1 := by
  unfold Machine.reqClearFault
  split
  · exact k.reqClearFaultHead p number
  · exact k.reqClearFaultStage p number
  · exact k.reqClearFaultDevice p
  · exact p

theorem reqFetchResults (p : P s) : P (Machine.reqFetchResults s).1 := by
  unfold Machine.reqFetchResults
  dsimp only
  split
  · exact p
  · exact k.retry (k.dropsResults p)

theorem reqProgramRecipe (p : P s) (entry : Nat) (record : List Byte) :
    P (Machine.reqProgramRecipe entry record s).1 := by
  unfold Machine.reqProgramRecipe
  split
  · exact p
  · split
    · exact p
    · split
      · exact p
      · split
        · exact k.setStore p _
        · exact p

theorem reqEraseBank (p : P s) (bank : Nat) : P (Machine.reqEraseBank bank s).1 := by
  unfold Machine.reqEraseBank
  split
  · exact p
  · split
    · exact p
    · exact k.setStore p _

theorem reqSetProtect (p : P s) (working master : Nat) : P (Machine.reqSetProtect working master s).1 := by
  unfold Machine.reqSetProtect
  split
  · split
    · exact p
    · exact k.setStore p _
  · exact p

/-- What the moves keep, the owner of every request keeps. -/
theorem takeRequest (p : P s) (q : Request) : P (Machine.takeRequest q s).1 := by
  cases q with
  | identify => exact p
  | getStatus => exact p
  | reset => exact p
  | setCell items => exact k.reqSetCell p items
  | setHead head items => exact k.reqSetHead p head items
  | setStage stage items => exact k.reqSetStage p stage items
  | loadFrame stage slots => exact k.reqLoadFrame p stage slots
  | submitJob head job => exact k.reqSubmitJob p head job
  | cancelJob head tag => exact k.reqCancelJob p head tag
  | flushQueue head => exact withHead_keeps p head fun h => k.flushHead p h
  | startHeads heads => exact k.reqStartHeads p heads
  | hold => exact k.reqHold p
  | resume => exact k.reqResume p
  | power stage order => exact k.reqPower p stage order
  | clearFault target number => exact k.reqClearFault p target number
  | getHead head => exact withHead_keeps p head fun h => k.modHead p h fun _ => by rfl
  | getStage stage => exact withStage_keeps p stage fun _ => p
  | getFrame stage => exact withStage_keeps p stage fun _ => p
  | fetchResults => exact k.reqFetchResults p
  | fetchEvents => exact k.dropsEvents p
  | readRecipe entry => exact (reqReadRecipe_state entry s).symm ▸ p
  | programRecipe entry record => exact k.reqProgramRecipe p entry record
  | eraseBank bank => exact k.reqEraseBank p bank
  | getStore => exact p
  | clearStore => exact k.setStore p _
  | setProtect working master => exact k.reqSetProtect p working master

/-! ## The cell link (R187 to R189, R195) -/

theorem process (p : P s) (f : LinkFrame) : P (s.process f) := by
  have taken : P { s with link := { s.link with processing := some f } } := k.setLink p _
  unfold State.process State.takeFrame
  split
  · exact k.pushReply taken _
  · split
    · exact k.pushReply taken _
    · next q _ => exact k.pushReply (k.takeRequest taken q) _

theorem acceptFrame (p : P s) (f : LinkFrame) : P (s.acceptFrame f) := by
  rcases s.acceptFrame_cases f with ⟨_, q⟩ | ⟨_, _, q⟩ | ⟨_, _, q⟩
  · rw [q]; exact k.process p f
  · rw [q]; exact k.setLink p _
  · rw [q]; exact k.setLink p _

theorem byteArrives (p : P s) (b : Byte) (stopBit : Bool) : P (s.byteArrives b stopBit) := by
  have collects (bytes : List Byte) : P (s.frameByte bytes) := by
    unfold State.frameByte
    split
    · exact k.setLink p _
    · exact k.setLink p _
    · exact k.acceptFrame (k.setLink p _) _
  unfold State.byteArrives
  split
  · split
    · exact k.setLink p _
    · exact p
  · split
    · exact collects _
    · exact k.setLink p _

theorem frameArrives (p : P s) (f : LinkFrame) : P (s.frameArrives f) := by
  unfold State.frameArrives
  split
  · exact k.acceptFrame (k.setLink p _) f
  · exact k.setLink p _

theorem nextFrame (p : P s) : P s.nextFrame := by
  unfold State.nextFrame
  split
  · exact k.process (k.setLink p _) _
  · exact k.setLink p _

theorem replyGone (p : P s) : P s.replyGone := by
  unfold State.replyGone
  split
  · exact p
  · dsimp only
    split
    · exact k.resets _ _ _ _
    · split
      · exact k.nextFrame (k.setLink p _)
      · exact k.setLink p _

/-! ## Commands -/

theorem atTime (p : P s) {time : Nat} {f : State → State} (acts : ∀ u : State, P u → P (f u)) :
    Answers P (Machine.atTime time s f) := by
  rcases atTime_cases time s f with ⟨_, q⟩ | ⟨_, q⟩
  · rw [q]; exact answers_next (acts _ (k.advance p _))
  · rw [q]; exact answers_next (k.advance p _)

theorem atExpiry (p : P s) {timer : Option Nat} {f : State → State} (acts : ∀ u : State, P u → P (f u)) :
    Answers P (Machine.atExpiry timer s f) := by
  rcases atExpiry_cases timer s f with ⟨e, _, _, q⟩ | q
  · rw [q]; exact answers_next (acts _ (k.advance p _))
  · rw [q]; exact answers_next p

theorem atStoreExpiry (p : P s) {timer : Option Nat} {f : State → State} (acts : ∀ u : State, P u → P (f u)) :
    Answers P (Machine.atStoreExpiry timer s f) := by
  rcases atStoreExpiry_cases timer s f with ⟨e, _, q⟩ | ⟨_, q⟩
  · rw [q]; exact answers_next (acts _ (k.advance p _))
  · rw [q]; exact answers_next p

/-- A request row of the table takes its request as a frame does. -/
theorem request (p : P s) {time : Nat} {kind : Kind} {tag : Byte} (q : Request) :
    Answers P (Machine.atTime time s (respond kind tag false (Machine.takeRequest q))) :=
  k.atTime p fun _ p => k.pushReply (k.takeRequest p q) _

/-- A message of a stage acts only where it passes the integrity check (R116). -/
theorem message (p : P s) {time : Nat} (intact : Bool) {f : State → State} (acts : ∀ u : State, P u → P (f u)) :
    Answers P (Machine.atTime time s (ifIntact intact f)) := by
  refine k.atTime p fun u p => ?_
  cases intact
  · exact p
  · exact acts u p

/-- A filter that ends with a change of a line input (R152). -/
theorem lineTaken (p : P s) {timer : Option Nat} (i : LineInput) (level : Level) {act : State → State}
    (acts : ∀ u : State, P u → P (act u)) : Answers P (Machine.atExpiry timer s (·.takeChange i level act)) :=
  k.atExpiry p fun _ p => k.takeChange p i level acts

theorem execSettleTimerExpiry (p : P s) (g : Stage) : Answers P (Machine.execSettleTimerExpiry g s) := by
  refine k.atExpiry p fun u p => ?_
  exact k.settleExpired (s := u.chose) (k.chose p) g _

theorem execArmTimerExpiry (p : P s) (h : Head) : Answers P (Machine.execArmTimerExpiry h s) := by
  refine k.atExpiry p fun u p => ?_
  exact k.takeCause (k.modJoint p h _) h _

theorem execDurationTimerExpiry (p : P s) (h : Head) : Answers P (Machine.execDurationTimerExpiry h s) := by
  refine k.atExpiry p fun u p => ?_
  exact k.durationExpired (k.modJoint p h _) h

theorem execTimeLimitExpiry (p : P s) (h : Head) : Answers P (Machine.execTimeLimitExpiry h s) := by
  refine k.atExpiry p fun u p => ?_
  exact k.takeCause (k.modJoint p h _) h _

theorem execLostTimerExpiry (p : P s) (h : Head) : Answers P (Machine.execLostTimerExpiry h s) := by
  refine k.atExpiry p fun u p => ?_
  exact k.takeCause (k.modHead p h fun _ => by rfl) h _

theorem execCompletionTimerExpiry (p : P s) (g : Stage) : Answers P (Machine.execCompletionTimerExpiry g s) := by
  refine k.atExpiry p fun u p => ?_
  exact k.enterFault p g _ _

theorem execPyrometerSample (p : P s) (time : Nat) (h : Head) (intact : Bool) (m : Sample) :
    Answers P (Machine.execPyrometerSample time h intact m s) := by
  refine k.atTime p fun u p => ?_
  exact k.sample p h _

theorem execSlotTimerExpiry (p : P s) (g : Stage) : Answers P (Machine.execSlotTimerExpiry g s) := by
  refine k.atExpiry p fun u p => ?_
  split
  · exact k.slotExpiry p g _
  · exact p

theorem execSplitTimerExpiry (p : P s) (g : Stage) : Answers P (Machine.execSplitTimerExpiry g s) := by
  refine k.atExpiry p fun u p => ?_
  split
  · split
    · exact k.splitExpiry p g _ _
    · exact p
  · exact p

theorem execLineInputChange (p : P s) (time : Nat) (i : LineInput) (level : Level) :
    Answers P (Machine.execLineInputChange time i level s) := by
  have moved : P (s.advance time) := k.advance p time
  unfold Machine.execLineInputChange State.lineChange
  split
  · exact answers_next (k.setInput moved i _)
  · refine answers_next ?_
    split
    · exact moved
    · exact k.setInput moved i _

theorem execInitialLevelTaken (p : P s) (i : LineInput) : Answers P (Machine.execInitialLevelTaken i s) := by
  refine k.atExpiry p fun u p => ?_
  dsimp only
  split
  · exact k.estopTaken (k.takeLevel p i)
  · exact k.takeLevel p i

theorem execResetLineReleased (p : P s) (time : Nat) : Answers P (Machine.execResetLineReleased time s) := by
  have moved : P (s.advance time) := k.advance p time
  unfold Machine.execResetLineReleased
  refine answers_next ?_
  split
  · exact k.leaveReset moved
  · exact moved

/-- What the moves keep, every command keeps. -/
theorem exec (p : P s) (c : Instr) : Answers P (Machine.exec c s) := by
  cases c with
  | identify => exact k.request p .identify
  | getStatus => exact k.request p .getStatus
  | reset => exact k.request p .reset
  | setCell _ _ items => exact k.request p (.setCell items)
  | setHead _ _ head items => exact k.request p (.setHead head items)
  | setStage _ _ stage items => exact k.request p (.setStage stage items)
  | loadFrame _ _ stage slots => exact k.request p (.loadFrame stage slots)
  | submitJob _ _ head job => exact k.request p (.submitJob head job)
  | cancelJob _ _ head tag => exact k.request p (.cancelJob head tag)
  | flushQueue _ _ head => exact k.request p (.flushQueue head)
  | startHeads _ _ heads => exact k.request p (.startHeads heads)
  | hold => exact k.request p .hold
  | resume => exact k.request p .resume
  | powerOn _ _ stage => exact k.request p (.power stage 0x01)
  | powerOff _ _ stage => exact k.request p (.power stage 0x00)
  | clearFaultHead _ _ head => exact k.request p (.clearFault 0x00 head)
  | clearFaultStage _ _ stage => exact k.request p (.clearFault 0x01 stage)
  | clearFaultDevice => exact k.request p (.clearFault 0x02 0)
  | getHead _ _ head => exact k.request p (.getHead head)
  | getStage _ _ stage => exact k.request p (.getStage stage)
  | getFrame _ _ stage => exact k.request p (.getFrame stage)
  | fetchResults => exact k.request p .fetchResults
  | fetchEvents => exact k.request p .fetchEvents
  | readRecipe _ _ entry => exact k.request p (.readRecipe entry)
  | programRecipe _ _ entry record => exact k.request p (.programRecipe entry record)
  | eraseBank _ _ bank => exact k.request p (.eraseBank bank)
  | getStore => exact k.request p .getStore
  | clearStore => exact k.request p .clearStore
  | setProtect _ _ working master => exact k.request p (.setProtect working master)
  | frameReceived => exact k.atTime p fun _ p => k.frameArrives p _
  | byteReceived => exact k.atTime p fun _ p => k.byteArrives p _ _
  | gapTimerExpiry => exact k.atExpiry p fun _ p => k.setLink p _
  | replySent => exact k.atTime p fun _ p => k.replyGone p
  | resetLine => exact k.atTime p fun _ _ => k.resets _ _ _ _
  | resetLineReleased time => exact k.execResetLineReleased p time
  | powerOnReset => exact answers_next (k.resets _ _ _ _)
  | busReport _ g intact => exact k.message p intact fun _ p => k.busReported p g _
  | segmentReport _ g intact => exact k.message p intact fun _ p => k.segmentReported (k.chose p) g _ _ _
  | tripReport _ g intact => exact k.message p intact fun _ p => k.tripReported p g _
  | settleTimerExpiry g => exact k.execSettleTimerExpiry p g
  | completionTimerExpiry g => exact k.execCompletionTimerExpiry p g
  | slotTimerExpiry g => exact k.execSlotTimerExpiry p g
  | splitTimerExpiry g => exact k.execSplitTimerExpiry p g
  | armTimerExpiry h => exact k.execArmTimerExpiry p h
  | durationTimerExpiry h => exact k.execDurationTimerExpiry p h
  | timeLimitExpiry h => exact k.execTimeLimitExpiry p h
  | pyrometerSample time h intact m => exact k.execPyrometerSample p time h intact m
  | lostTimerExpiry h => exact k.execLostTimerExpiry p h
  | lineInputChange time i level => exact k.execLineInputChange p time i level
  | initialLevelTaken i => exact k.execInitialLevelTaken p i
  | estopAsserted => exact k.lineTaken p .estop .low fun _ p => k.estopTaken p
  | estopReleased => exact k.lineTaken p .estop .high fun _ p => k.offers _ p
  | motionAsserted => exact k.lineTaken p .motion .low fun _ p => k.motionAssert p
  | motionReleased => exact k.lineTaken p .motion .high fun _ p => k.startChecks (k.offers _ p) _
  | clampFallingEdge h => exact k.lineTaken p (.clamp h) .low fun _ p => k.clampFell p h
  | clampRisingEdge h => exact k.lineTaken p (.clamp h) .high fun _ p => k.clampRose p h
  | flowFallingEdge h => exact k.lineTaken p (.flow h) .low fun _ p => k.flowFell p h
  | flowRisingEdge h => exact k.lineTaken p (.flow h) .high fun _ p => k.flowRose p h
  | keyChange => exact k.atExpiry p fun _ p => k.takeLevel p .key
  | flowGraceTimerExpiry h => exact k.atExpiry p fun _ p => k.graceExpired p h
  | programComplete => exact k.atStoreExpiry p fun _ p => k.programDone p _
  | eraseComplete => exact k.atStoreExpiry p fun _ p => k.eraseDone p _
  | suspendTimerExpiry => exact k.atStoreExpiry p fun _ p => k.suspendEnds p

/-- What the moves keep, every step keeps; with an empty queue nothing changes. -/
theorem step (p : P s) : Answers P (Machine.step s) := by
  unfold Machine.step
  split
  · next c rest _ => exact k.exec (s := { s with pending := rest }) (k.around p rfl rfl) c
  · exact answers_next p

end KeepsReportMoves

end Sys2Proof.Machine
end

section
/-! The result places (R170), and the event queue with ATTN (R173, R175), over every step. -/

namespace Sys2Proof.Machine

/-! ## The active joints (R8) -/

/-- A count over distinct elements, when the test changes at one of them alone. -/
theorem countP_changed {α : Type} {p q : α → Bool} {a : α} (same : ∀ b, b ≠ a → p b = q b) {l : List α}
    (nodup : l.Nodup) (inside : a ∈ l) : l.countP p + (q a).toNat = l.countP q + (p a).toNat := by
  induction l with
  | nil => cases inside
  | cons b rest ih =>
    obtain ⟨fresh, distinct⟩ := List.nodup_cons.1 nodup
    by_cases here : b = a
    · subst here
      have others : rest.countP p = rest.countP q :=
        List.countP_congr fun c among => by rw [same c fun e => fresh (e ▸ among)]
      cases hp : p b <;> cases hq : q b <;> simp [hp, hq, others]
    · have behind := ih distinct ((List.mem_cons.1 inside).resolve_left (Ne.symm here))
      simp only [List.countP_cons, same b here]
      omega

theorem State.activeJoints_eq (s : State) : s.activeJoints = Head.all.countP fun h => (s.head h).joint.isSome :=
  List.countP_eq_length_filter.symm

theorem State.activeJoints_congr {s t : State} (joints : ∀ h, (t.head h).joint.isSome = (s.head h).joint.isSome) :
    t.activeJoints = s.activeJoints := by
  simp only [State.activeJoints, joints]

/-- A head's new record adds its joint to the count and takes the old one from it. -/
theorem State.activeJoints_setHead (s : State) (h : Head) (r : HeadRec) :
    (s.setHead h r).activeJoints + (s.head h).joint.isSome.toNat = s.activeJoints + r.joint.isSome.toNat := by
  have change := countP_changed (p := fun k => ((s.setHead h r).head k).joint.isSome)
    (q := fun k => (s.head k).joint.isSome) (a := h) (fun k other => by rw [State.head_setHead_other _ _ other])
    Head.all_nodup (Head.mem_all h)
  rwa [State.head_setHead_same, ← State.activeJoints_eq, ← State.activeJoints_eq] at change

/-! ## The result places -/

/-- An activation takes a place that is free, and a joint that ends hands its place to its result (R8, R170). -/
theorem placesOk_keepsReportMoves : KeepsReportMoves State.PlacesOk where
  same ok around := by rwa [State.PlacesOk, around.report, State.activeJoints_congr around.joints]
  offers e ok := by rwa [State.PlacesOk, State.raise_report, ReportRec.offer_results]
  activates {s h r} ok room := by
    have change := s.activeJoints_setHead h r
    have one := r.joint.isSome.toNat_le
    simp only [State.PlacesOk, State.setHead_report]
    omega
  ends {s h r} x ok active gone := by
    have change := (s.placeResult x).activeJoints_setHead h r
    have before : (s.placeResult x).activeJoints = s.activeJoints := rfl
    have placed : (s.placeResult x).report.results.length = s.report.results.length + 1 := List.length_append
    simp only [State.head_placeResult, active, gone, Option.isSome_none, Bool.toNat_true, Bool.toNat_false] at change
    simp only [State.PlacesOk, State.setHead_report] at ok ⊢
    omega
  dropsResults ok := Nat.le_trans (Nat.add_le_add_right (List.drop_sublist _ _).length_le _) ok
  dropsEvents ok := ok
  resets s kind strap store := by
    have idle : (s.resetPart kind strap store).activeJoints = 0 := by
      simp [State.activeJoints, State.head, State.resetPart, HeadRec.reset]
    rw [State.PlacesOk, idle]
    exact Nat.zero_le 32

/-- Settles O4: no move takes a result place that is not free (`placesOk_keepsReportMoves`), and every step is made of
the moves (`KeepsReportMoves.step`). -/
theorem resultPlacesKept : Obligations.ResultPlacesKept :=
  fun _ t ok => placesOk_keepsReportMoves.step ok t

/-! ## The event queue and ATTN -/

/-- The condition of the report block alone: ATTN stands for a record held, and both counts stay in their bounds. -/
def ReportRec.EventsOk (r : ReportRec) : Prop :=
  (r.attn = true ↔ r.results ≠ [] ∨ r.events ≠ []) ∧ r.events.length ≤ 16 ∧ r.eventsLost ≤ 255

theorem State.eventsOk_iff (s : State) : s.EventsOk ↔ s.report.EventsOk := Iff.rfl

/-- ATTN set by the queues is true to them (R175). -/
theorem ReportRec.withAttn_eventsOk {r : ReportRec} (room : r.events.length ≤ 16) (lost : r.eventsLost ≤ 255) :
    r.withAttn.EventsOk :=
  ⟨r.withAttn_attn, room, lost⟩

theorem ReportRec.EventsOk.offer {r : ReportRec} (ok : r.EventsOk) (e : Event) : (r.offer e).EventsOk := by
  obtain ⟨attn, room, lost⟩ := ok
  rcases r.offer_cases e with ⟨free, q⟩ | ⟨_, q⟩ <;> rw [q]
  · have placed : (r.events ++ [e]).length ≤ 16 :=
      Nat.le_trans (Nat.le_of_eq List.length_append) free
    exact ⟨⟨fun _ => .inr (List.append_ne_nil_of_right_ne_nil _ (List.cons_ne_nil _ _)), fun _ => rfl⟩, placed, lost⟩
  · exact ⟨attn, room, Nat.min_le_right _ _⟩

/-- Each move that changes a queue sets ATTN by what the queues then hold (R173 to R175). -/
theorem eventsOk_keepsReportMoves : KeepsReportMoves State.EventsOk where
  same ok around := by rwa [State.eventsOk_iff, around.report]
  offers e ok := ReportRec.EventsOk.offer ok e
  activates ok _ := ok
  ends _ := fun ⟨_, room, lost⟩ _ _ => ReportRec.withAttn_eventsOk room lost
  dropsResults := fun ⟨_, room, lost⟩ => ReportRec.withAttn_eventsOk room lost
  dropsEvents := fun ⟨_, room, _⟩ =>
    ReportRec.withAttn_eventsOk (Nat.le_trans (List.drop_sublist _ _).length_le room) (Nat.zero_le _)
  resets _ _ _ _ := by simp [State.EventsOk, State.resetPart, ReportRec.reset]

/-- Settles O5: every move keeps the report block's condition (`eventsOk_keepsReportMoves`), and every step is made of
the moves (`KeepsReportMoves.step`). -/
theorem eventQueueAndAttnKept : Obligations.EventQueueAndAttnKept :=
  fun _ t ok => eventsOk_keepsReportMoves.step ok t

end Sys2Proof.Machine
end

section
/-! Results and events on the cell link (R171, R174, R192): how a number, a result record and an event record stand in
bytes, and what the two fetches answer and remove. -/

namespace Sys2Proof.Machine

/-! ## Numbers in bytes (R192) -/

theorem numField_fits {n v : Nat} (fits : v < 256 ^ n) : numField n v = bytesBE n v := if_pos fits

theorem numField_two {v : Nat} (fits : v < 65536) : numField 2 v = [BitVec.ofNat 8 (v / 256), BitVec.ofNat 8 v] := by
  rw [numField_fits (n := 2) fits]
  simp [bytesBE]

theorem numField_three {v : Nat} (fits : v < 16777216) :
    numField 3 v = [BitVec.ofNat 8 (v / 65536), BitVec.ofNat 8 (v / 256), BitVec.ofNat 8 v] := by
  rw [numField_fits (n := 3) fits]
  simp [bytesBE]

theorem numField_four {v : Nat} (fits : v < 4294967296) :
    numField 4 v =
      [BitVec.ofNat 8 (v / 16777216), BitVec.ofNat 8 (v / 65536), BitVec.ofNat 8 (v / 256), BitVec.ofNat 8 v] := by
  rw [numField_fits (n := 4) fits]
  simp [bytesBE]

/-- A number of one byte, in a field of four. -/
theorem numField_four_small {v : Nat} (small : v < 256) : numField 4 v = [0, 0, 0, BitVec.ofNat 8 v] := by
  rw [numField_four (by omega), Nat.div_eq_of_lt (by omega), Nat.div_eq_of_lt (by omega), Nat.div_eq_of_lt small]
  rfl

theorem numField_two_zero : numField 2 0 = [0, 0] := numField_two (by decide)

/-! ## Records in bytes (11.4) -/

/-- An outcome's code is one byte. -/
theorem byteField_outcome (o : JointOutcome) : byteField o.code = [BitVec.ofNat 8 o.code] :=
  byteField_fits (by cases o <;> decide)

/-- The lock of a result stands behind the fields before it: a flag, the tap and the load, all 0 without a lock. -/
theorem append_lockBytes (fields : List Byte) (lock : Option LockRecord) :
    fields ++ flagField lock.isSome ++ byteField ((lock.map LockRecord.tap).getD 0) ++
        numField 2 ((lock.map LockRecord.load).getD 0) =
      fields ++ match lock with
        | some l => [0x01] ++ byteField l.tap ++ numField 2 l.load
        | none => [0x00, 0x00, 0x00, 0x00] := by
  cases lock with
  | none => simp [flagField_eq, byteField_fits, numField_two_zero]
  | some l => simp [flagField_eq]

theorem eventKindCode_lt (e : Event) : eventKindCode e < 256 := by
  cases e <;> simp [eventKindCode]

/-- An event's code is one byte, and its subject and its value follow. -/
theorem eventBytes_eq (e : Event) :
    eventBytes e = [BitVec.ofNat 8 (eventKindCode e)] ++ numField 2 (eventSubject e) ++ eventValue e := by
  rw [eventBytes, byteField_fits (eventKindCode_lt e)]

/-- The value of an event without one. -/
theorem numField_four_zero : numField 4 0 = [0, 0, 0, 0] := numField_four_small (by decide)

/-- An event with a value of one byte and no subject. -/
theorem cellEventBytes (kind : Byte) {v : Nat} (small : v < 256) :
    [kind] ++ numField 2 0 ++ numField 4 v = [kind, 0, 0, 0, 0, 0, BitVec.ofNat 8 v] := by
  rw [numField_two_zero, numField_four_small small]
  rfl

/-- The value of STORE_DONE: the operation with its entry, and the result of the verify. -/
theorem eventValue_storeDone (bank : Fin 4) (op : DoneOp) (passed : Bool) :
    eventValue (.storeDone bank op passed) =
      (match op with
        | .program entry => [0x01] ++ byteField entry.val
        | .erase => [0x02, 0]) ++ [0, if passed then 0x00 else 0x01] := by
  cases op <;> cases passed <;> simp [eventValue, byteField_fits]

/-! ## The fetches (R171, R174) -/

section

variable {s : State}

/-- With no result held a fetch gives 0 and changes nothing. -/
theorem reqFetchResults_none (held : s.report.results = []) : reqFetchResults s = (s, .accept false [0x00]) := by
  simp [reqFetchResults, held, listField, byteField_fits]

/-- The oldest results are given and removed, and activation is re-tried. -/
theorem reqFetchResults_some (held : s.report.results ≠ []) :
    reqFetchResults s =
      (State.retry { s with report := s.report.dropResults },
        .accept false (byteField (min 4 s.report.results.length) ++
          (s.report.results.take 4).flatMap resultBytes)) := by
  simp [reqFetchResults, held, listField, resultsPerFetch]

/-- The oldest events are given with the lost count, and removed. -/
theorem reqFetchEvents_eq (s : State) : reqFetchEvents s =
    ({ s with report := s.report.dropEvents },
      .accept false (byteField (min 8 s.report.events.length) ++ byteField s.report.eventsLost ++
        (s.report.events.take 8).flatMap eventBytes)) := by
  simp [reqFetchEvents, eventsPerFetch]

end

/-- A raised event, by the room in the queue. -/
theorem State.raise_eq (s : State) (e : Event) : s.raise e = { s with report :=
    if s.report.events.length < 16 then { s.report with events := s.report.events ++ [e], attn := true }
    else { s.report with eventsLost := min (s.report.eventsLost + 1) 255 } } := by
  rcases s.report.offer_cases e with ⟨room, q⟩ | ⟨full, q⟩
  · rw [State.raise, q, if_pos room]
  · rw [State.raise, q, if_neg (by omega)]

/-- Settles O38: the fetches by what they take and leave, the placing of a result and of an event, and the records field
by field. -/
theorem fetchesRemoveOldest : Obligations.FetchesRemoveOldest := by
  refine ⟨fun time tag s run => ⟨fun none_ => ?_, fun held => ?_, ?_⟩, State.placeResult_eq, State.raise_eq,
    ⟨fun v => byteField_fits, fun v => numField_two, fun v => numField_three, fun v => numField_four⟩, fun x => ?_,
    fun v => ?_⟩
  · exact request_accepted .fetchResults tag reqFetchResults run (reqFetchResults_none (s := s.advance time) none_)
  · have answer := reqFetchResults_some (s := s.advance time) held
    exact (atTime_run run time _).trans (congrArg Host.Outcome.next (respond_accept answer .fetchResults tag false))
  · exact request_accepted .fetchEvents tag reqFetchEvents run (reqFetchEvents_eq (s.advance time))
  · intro outcome peak tuning entry
    have code : byteField x.outcome.code = [outcome] := by
      rw [byteField_outcome]
      cases o : x.outcome <;> simp only [outcome, o] <;> rfl
    have top : x.peak.getD 0 = peak := by
      cases p : x.peak <;> simp only [peak, p] <;> rfl
    rw [resultBytes, code, top, append_lockBytes, listField, ← List.append_assoc]
    rfl
  · rw [eventBytes_eq]
    cases v with
    | indexDone tag ended failed => exact (List.append_assoc ..).symm
    | stageFault g cause => cases cause <;> exact congrArg (_ ++ ·) (numField_four_small (by decide))
    | loadShift h load => rfl
    | coilDrift h tap => rfl
    | estop asserted => cases asserted <;> exact cellEventBytes 0x08 (by decide)
    | motion value => cases value <;> exact cellEventBytes 0x09 (by decide)
    | storeDone bank op passed =>
      rw [eventValue_storeDone, ← List.append_assoc]
      rfl
    | headFault | frameAdopted | stageReady | clampRise | clampFall | flowLow | flowOk | coolantFault =>
      exact congrArg (_ ++ ·) numField_four_zero

end Sys2Proof.Machine
end

section
/-! A part held in reset (R195, log entry 17): what a command at a time and a timer's expiry leave of it. -/

namespace Sys2Proof.Machine

/-- The outcome is `s` with its clock moved on, and nothing else changed. -/
def OnlyClockMoves (s : State) (o : Host.Outcome State Fault Refusal) : Prop :=
  ∃ n, s.now ≤ n ∧ o = .next { s with now := n }

section

variable {s : State}

theorem atTime_held_onlyClockMoves (held : s.inReset = true) (time : Nat) (f : State → State) :
    OnlyClockMoves s (atTime time s f) :=
  ⟨max s.now time, Nat.le_max_left _ _, atTime_held held time f⟩

/-- A timer of another block than the store does not even move the clock. -/
theorem atExpiry_held (held : s.inReset = true) (timer : Option Nat) (f : State → State) :
    atExpiry timer s f = .next s := by
  rcases atExpiry_cases timer s f with ⟨_, _, run, _⟩ | stays
  · exact absurd run (by simp [held])
  · exact stays

theorem atExpiry_held_onlyClockMoves (held : s.inReset = true) (timer : Option Nat) (f : State → State) :
    OnlyClockMoves s (atExpiry timer s f) :=
  ⟨s.now, Nat.le_refl _, atExpiry_held held timer f⟩

end

/-- Settles O15, by the kind of command: the six that still act are shut out, a timer's expiry changes nothing, and
every other command comes at a time. -/
theorem heldInResetOnlyClockMoves : Obligations.HeldInResetOnlyClockMoves := by
  intro c s held notPin notPowerOn notReleased notProgrammed notErased notSuspendEnd
  change OnlyClockMoves s (exec c s)
  cases c with
  | lineInputChange t i l => exact absurd rfl (notPin t i l)
  | powerOnReset t r => exact absurd rfl (notPowerOn t r)
  | resetLineReleased t => exact absurd rfl (notReleased t)
  | programComplete b => exact absurd rfl (notProgrammed b)
  | eraseComplete b => exact absurd rfl (notErased b)
  | suspendTimerExpiry => exact absurd rfl notSuspendEnd
  | gapTimerExpiry | settleTimerExpiry | completionTimerExpiry | slotTimerExpiry | splitTimerExpiry | armTimerExpiry
  | durationTimerExpiry | timeLimitExpiry | lostTimerExpiry | initialLevelTaken | estopAsserted | estopReleased
  | motionAsserted | motionReleased | clampFallingEdge | clampRisingEdge | flowFallingEdge | flowRisingEdge | keyChange
  | flowGraceTimerExpiry => dsimp only [exec]; exact atExpiry_held_onlyClockMoves held _ _
  | _ => dsimp only [exec]; exact atTime_held_onlyClockMoves held _ _

end Sys2Proof.Machine
end

section
/-! The recipe store's requests (R178, R179, R183, R184): the checks a program and an erase share, what each request
answers, and how a bank being erased reads. -/

namespace Sys2Proof.Machine

/-! ## The numbers a request names (R177) -/

@[simp] theorem entryOf?_val (e : Fin 64) : entryOf? e.val = some e := dif_pos e.isLt

theorem entryOf?_above {n : Nat} (above : 63 < n) : entryOf? n = none := dif_neg (by omega)

@[simp] theorem bankOf?_val (b : Fin 4) : bankOf? b.val = some b := dif_pos b.isLt

theorem bankOf?_above {n : Nat} (above : 3 < n) : bankOf? n = none := dif_neg (by omega)

section

variable {s : State}

/-! ## The shared checks, the first that fails (R178, R179) -/

/-- A bank is writable by the working enable, and a master bank by the master enable and the KEY too (R184). -/
theorem State.writable_iff (s : State) (b : Nat) : s.writable b = true ↔
    s.store.workingEnable = true ∧ (2 ≤ b ∨ (s.store.masterEnable = true ∧ s.cell.key.taken = some .high)) := by
  simp [State.writable, Input.permits]

/-- The working banks, 2 and 3, hold the entries from 32 on (R177). -/
theorem State.writable_bankOf_iff (s : State) (entry : Nat) : s.writable (bankOf entry) = true ↔
    s.store.workingEnable = true ∧
      (32 ≤ entry ∨ (s.store.masterEnable = true ∧ s.cell.key.taken = some .high)) := by
  have working : 2 ≤ bankOf entry ↔ 32 ≤ entry := by unfold bankOf; omega
  rw [State.writable_iff, working]

theorem State.storeCheck_busy (busy : s.store.mode ≠ .ready) (b : Nat) : s.storeCheck b = some .storeBusy := by
  simp [State.storeCheck, busy]

theorem State.storeCheck_errorPending (ready : s.store.mode = .ready)
    (pending : s.store.programError = true ∨ s.store.eraseError = true) (b : Nat) :
    s.storeCheck b = some .storeErrorPending := by
  simp [State.storeCheck, StoreRec.errorPending, ready, pending]

section

variable {b : Nat} (ready : s.store.mode = .ready) (programOk : s.store.programError = false)
  (eraseOk : s.store.eraseError = false)

include ready programOk eraseOk

theorem State.storeCheck_protected (locked : ¬ s.writable b = true) : s.storeCheck b = some .isProtected := by
  simp [State.storeCheck, StoreRec.errorPending, ready, programOk, eraseOk, locked]

theorem State.storeCheck_passes (writable : s.writable b = true) : s.storeCheck b = none := by
  simp [State.storeCheck, StoreRec.errorPending, ready, programOk, eraseOk, writable]

end

/-! ## ERASE_BANK (R179) -/

theorem reqEraseBank_above {bank : Nat} (above : 3 < bank) : reqEraseBank bank s = (s, .refuse .badField) := by
  simp [reqEraseBank, bankOf?_above above]

theorem reqEraseBank_refused {b : Fin 4} {reason : Reason} (check : s.storeCheck b.val = some reason) :
    reqEraseBank b.val s = (s, .refuse reason) := by
  simp [reqEraseBank, check]

theorem reqEraseBank_passes {b : Fin 4} (check : s.storeCheck b.val = none) :
    reqEraseBank b.val s = (s.startErase b, .accept false []) := by
  simp [reqEraseBank, check]

/-- The entries of the bank whose erase is in flight. -/
theorem StoreRec.erases_iff {t : StoreRec} {b : Fin 4} (erase : t.op = some (.erase b)) (n : Nat) :
    t.erases n = true ↔ n / 16 = b.val := by
  simp only [StoreRec.erases, StoreRec.erasing, erase]
  exact decide_eq_true_iff.trans eq_comm

/-- An entry of a bank being erased is not valid to a fetch (R181). -/
theorem StoreRec.fetched_of_erases {t : StoreRec} {n : Nat} (erases : t.erases n = true) : t.fetched n = none := by
  simp [StoreRec.fetched, erases]

/-- An entry of a bank being erased reads as ERASING, in any state of the store (R183). -/
theorem reqReadRecipe_erases {e : Fin 64} (erases : s.store.erases e.val = true) :
    reqReadRecipe e.val s = (s, .accept false [0x04]) := by
  simp [reqReadRecipe, StoreRec.readBytes, erases, erasingCode, byteField_fits]

/-! ## PROGRAM_RECIPE (R178) -/

theorem recipeOf?_valid {record : List Byte} {r : Recipe} (parsed : parseRecipe record = some r)
    (valid : r.valid = true) : recipeOf? record = some r := by
  simp [recipeOf?, parsed, valid]

theorem recipeOf?_bad {record : List Byte} (bad : ∀ r, parseRecipe record = some r → r.valid = false) :
    recipeOf? record = none := by
  simpa [recipeOf?, Option.filter_eq_none_iff] using bad

theorem reqProgramRecipe_above {entry : Nat} (above : 63 < entry) (record : List Byte) :
    reqProgramRecipe entry record s = (s, .refuse .badField) := by
  simp [reqProgramRecipe, entryOf?_above above]

section

variable {e : Fin 64} {record : List Byte} {r : Recipe}

theorem reqProgramRecipe_badRecipe (bad : recipeOf? record = none) :
    reqProgramRecipe e.val record s = (s, .refuse .badRecipe) := by
  simp [reqProgramRecipe, bad]

theorem reqProgramRecipe_refused (recipe : recipeOf? record = some r) {reason : Reason}
    (check : s.storeCheck (bankOf e.val) = some reason) :
    reqProgramRecipe e.val record s = (s, .refuse reason) := by
  simp [reqProgramRecipe, recipe, check]

theorem reqProgramRecipe_notBlank (recipe : recipeOf? record = some r) (check : s.storeCheck (bankOf e.val) = none)
    (used : s.store.entries[e] ≠ .blank) : reqProgramRecipe e.val record s = (s, .refuse .notBlank) := by
  simp only [reqProgramRecipe, entryOf?_val, recipe, check, if_neg used]

theorem reqProgramRecipe_passes (recipe : recipeOf? record = some r) (check : s.storeCheck (bankOf e.val) = none)
    (blank : s.store.entries[e] = .blank) :
    reqProgramRecipe e.val record s = (s.startProgram e r, .accept false []) := by
  simp only [reqProgramRecipe, entryOf?_val, recipe, check, if_pos blank]

end

/-! ## SET_PROTECT (R184) -/

theorem flagOfCode?_toNat (b : Bool) : flagOfCode? b.toNat = some b := by cases b <;> rfl

theorem flagOfCode?_above {v : Nat} (above : 1 < v) : flagOfCode? v = none := by
  obtain ⟨k, rfl⟩ : ∃ k, v = k + 2 := ⟨v - 2, by omega⟩
  rfl

theorem reqSetProtect_above {w m : Nat} (above : 1 < w ∨ 1 < m) : reqSetProtect w m s = (s, .refuse .badField) := by
  rcases above with working | master
  · simp [reqSetProtect, flagOfCode?_above working]
  · cases known : flagOfCode? w <;> simp [reqSetProtect, known, flagOfCode?_above master]

/-- Turning the master enable on takes a closed KEY. -/
theorem reqSetProtect_protected {m : Bool} (on : m = true) (wasOff : s.store.masterEnable = false)
    (opened : s.cell.key.taken ≠ some .high) (w : Bool) :
    reqSetProtect w.toNat m.toNat s = (s, .refuse .isProtected) := by
  simp only [reqSetProtect, flagOfCode?_toNat]
  simp [Input.permits, on, wasOff, opened]

theorem reqSetProtect_permitted {m : Bool}
    (permitted : m = false ∨ s.store.masterEnable = true ∨ s.cell.key.taken = some .high) (w : Bool) :
    reqSetProtect w.toNat m.toNat s =
      ({ s with store := { s.store with workingEnable := w, masterEnable := m } },
        .accept false (flagField w ++ flagField m)) := by
  have passes : ¬ (m && !s.store.masterEnable && !s.cell.key.permits) = true := by
    simpa [Input.permits, Classical.or_iff_not_imp_left] using permitted
  simp only [reqSetProtect, flagOfCode?_toNat, if_neg passes]

end

/-- Settles O57: the checks in their order, then the accepted erase and how its bank reads while it is in flight. -/
theorem eraseBankChecksAndStarts : Obligations.EraseBankChecksAndStarts := by
  intro time tag bank s run refused writable
  let u := s.advance time
  have refuses {reason : Reason} (answer : reqEraseBank bank u = (u, .refuse reason)) :
      refused (BitVec.ofNat 8 reason.code) := request_refused .eraseBank tag (reqEraseBank bank) run answer
  refine ⟨fun above => refuses (reqEraseBank_above above), fun b named => ?_⟩
  subst named
  have mayWrite : u.writable b.val = true ↔ writable := u.writable_iff b.val
  refine ⟨fun busy => ?_, fun ready => ⟨fun pending => ?_, fun programOk eraseOk => ⟨fun locked => ?_,
    fun canWrite => ?_⟩⟩⟩
  · exact refuses (reqEraseBank_refused (State.storeCheck_busy busy _))
  · exact refuses (reqEraseBank_refused (State.storeCheck_errorPending ready pending _))
  · exact refuses (reqEraseBank_refused
      (State.storeCheck_protected ready programOk eraseOk (mt mayWrite.1 locked)))
  · intro t
    have check : u.storeCheck b.val = none := State.storeCheck_passes ready programOk eraseOk (mayWrite.2 canWrite)
    refine ⟨?_, fun _ => rfl, fun e inBank => ?_⟩
    · exact request_accepted .eraseBank tag (reqEraseBank b.val) run (reqEraseBank_passes check)
    · have erases : t.store.erases e.val = true := (StoreRec.erases_iff (t := t.store) rfl e.val).2 inBank
      refine ⟨StoreRec.fetched_of_erases erases, fun later tag' => ?_⟩
      exact request_accepted .readRecipe tag' (reqReadRecipe e.val) (s := t) run
        (reqReadRecipe_erases (s := t.advance later) erases)

/-- Settles O58: PROGRAM_RECIPE with its checks in their order, then SET_PROTECT by the values and the KEY, then
CLEAR_STORE. -/
theorem programProtectAndClear : Obligations.ProgramProtectAndClear := by
  intro time tag s run
  let u := s.advance time
  refine ⟨?_, ?_, ?_, ?_⟩
  · intro entry record c refused writable
    have refuses {reason : Reason} (answer : reqProgramRecipe entry record u = (u, .refuse reason)) :
        refused (BitVec.ofNat 8 reason.code) :=
      request_refused .programRecipe tag (reqProgramRecipe entry record) run answer
    refine ⟨fun above => refuses (reqProgramRecipe_above above record), fun e named => ?_⟩
    subst named
    refine ⟨fun bad => refuses (reqProgramRecipe_badRecipe (recipeOf?_bad bad)), fun r parsed valid => ?_⟩
    have recipe : recipeOf? record = some r := recipeOf?_valid parsed valid
    have mayWrite : u.writable (bankOf e.val) = true ↔ writable := u.writable_bankOf_iff e.val
    have passes (ready : s.store.mode = .ready) (programOk : s.store.programError = false)
        (eraseOk : s.store.eraseError = false) (canWrite : writable) : u.storeCheck (bankOf e.val) = none :=
      State.storeCheck_passes ready programOk eraseOk (mayWrite.2 canWrite)
    refine ⟨fun busy => ?_, fun ready => ⟨fun pending => ?_, fun programOk eraseOk => ⟨fun locked => ?_,
      fun canWrite used => ?_, fun canWrite blank => ?_⟩⟩⟩
    · exact refuses (reqProgramRecipe_refused recipe (State.storeCheck_busy busy _))
    · exact refuses (reqProgramRecipe_refused recipe (State.storeCheck_errorPending ready pending _))
    · exact refuses (reqProgramRecipe_refused recipe
        (State.storeCheck_protected ready programOk eraseOk (mt mayWrite.1 locked)))
    · exact refuses (reqProgramRecipe_notBlank recipe (passes ready programOk eraseOk canWrite) used)
    · exact request_accepted .programRecipe tag (reqProgramRecipe e.val record) run
        (reqProgramRecipe_passes recipe (passes ready programOk eraseOk canWrite) blank)
  · intro w m above
    exact request_refused .setProtect tag (reqSetProtect w m) run (reqSetProtect_above above)
  · intro w m c
    refine ⟨fun on off opened => ?_, fun permitted => ?_⟩
    · exact request_refused .setProtect tag (reqSetProtect w.toNat m.toNat) run
        (reqSetProtect_protected (s := u) on off opened w)
    · exact request_accepted .setProtect tag (reqSetProtect w.toNat m.toNat) run
        (reqSetProtect_permitted (s := u) permitted w)
  · exact request_accepted .clearStore tag reqClearStore run (data := flagField _ ++ flagField _) rfl

end Sys2Proof.Machine
end

section
/-! What a request's owner answers (R189, R190): a refusal that changes nothing, or an accept that leaves the cell link to
the reply. Every request row of the table is such a request, answered once. -/

namespace Sys2Proof.Machine

/-! ## The shared operations leave the link -/

section

variable (s : State)

/-- The job manager's moves touch no field of the link. -/
theorem keepsJobMoves_link (l : LinkRec) : KeepsJobMoves fun u => u.link = l where
  activates same _ _ := same
  loads same := same
  starts same _ := same
  ends {u h o} same := ((SameAround.refl u).endCore h o).link.trans same
  queues same := same
  suspends same := same

@[simp] theorem State.modHead_link (h : Head) (f : HeadRec → HeadRec) : (s.modHead h f).link = s.link := rfl
@[simp] theorem State.modStage_link (g : Stage) (f : StageRec → StageRec) : (s.modStage g f).link = s.link := rfl

@[simp] theorem State.retry_link : s.retry.link = s.link := s.retry_around.link

@[simp] theorem State.startChecks_link (hs : List Head) : (s.startChecks hs).link = s.link :=
  (s.startChecks_around hs).link

@[simp] theorem State.startCheck_link (h : Head) : (s.startCheck h).link = s.link := s.startChecks_link [h]

@[simp] theorem State.takeCause_link (h : Head) (o : JointOutcome) : (s.takeCause h o).link = s.link :=
  (keepsJobMoves_link s.link).takeCause (fun same => same) (fun same _ => same) rfl h o

@[simp] theorem State.leaveJobs_link (jobs : List Job) : (s.leaveJobs jobs).link = s.link := by
  obtain ⟨_, _, only, _⟩ := s.leaveJobs_only jobs
  rw [only]

@[simp] theorem State.flushHead_link (h : Head) : (s.flushHead h).link = s.link := State.leaveJobs_link _ _

@[simp] theorem State.enableHead_link (h : Head) (enable : Option Nat) : (s.enableHead h enable).link = s.link := by
  unfold State.enableHead State.turnHeadOff State.turnHeadOn
  split
  · split <;> simp
  · split <;> simp
  · rfl

@[simp] theorem State.decideOrDefer_link (g : Stage) : (s.decideOrDefer g).link = s.link := by
  rcases s.decideOrDefer_cases g with ⟨_, deferred⟩ | ⟨_, decided⟩
  · rw [deferred]; rfl
  · obtain ⟨r, only | ⟨h, d, sent, only⟩, _⟩ := s.decideSlot_only g <;> rw [decided, only] <;> rfl

@[simp] theorem State.startFrame_link (g : Stage) (t : Nat) : (s.startFrame g t).link = s.link := by
  unfold State.startFrame State.startSlot
  split
  · split
    · split
      · split <;> simp
      · rfl
    · rfl
  · rfl

@[simp] theorem State.adoptNow_link (g : Stage) (f : List Slot) : (s.adoptNow g f).link = s.link := by
  unfold State.adoptNow
  dsimp only
  split <;> simp

@[simp] theorem State.turnOff_link (g : Stage) : (s.turnOff g).link = s.link := by
  rw [State.turnOff]
  rcases State.stopIfReady_cases _ g (s.stage g).mode with ⟨_, stopped⟩ | ⟨_, stays⟩
  · rw [stopped]
    rcases State.adoptPending_cases _ g with ⟨f, _, adopted⟩ | ⟨_, none_⟩
    · rw [adopted]; rfl
    · rw [none_]; rfl
  · rw [stays]; rfl

end

/-! ## What an owner answers -/

/-- The owner of a request found `s` and answers `x`: it refuses and leaves the state as it is, or it accepts and leaves
the link as it is. -/
def AnswersRequest (s : State) (x : State × Answer) : Prop :=
  (∃ reason, x = (s, .refuse reason)) ∨ ∃ t mark data, x = (t, .accept mark data) ∧ t.link = s.link

namespace AnswersRequest

variable {s t : State}

theorem refuse (s : State) (reason : Reason) : AnswersRequest s (s, .refuse reason) := .inl ⟨reason, rfl⟩

theorem accept {mark : Bool} {data : List Byte} (same : t.link = s.link) : AnswersRequest s (t, .accept mark data) :=
  .inr ⟨t, mark, data, rfl, same⟩

theorem withHead (n : Nat) {owner : Head → State → State × Answer} (acts : ∀ h, AnswersRequest s (owner h s)) :
    AnswersRequest s (Machine.withHead n owner s) := by
  rcases withHead_cases n owner s with ⟨h, _, q⟩ | ⟨_, q⟩
  · rw [q]; exact acts h
  · rw [q]; exact refuse s _

theorem withStage (n : Nat) {owner : Stage → State → State × Answer} (acts : ∀ g, AnswersRequest s (owner g s)) :
    AnswersRequest s (Machine.withStage n owner s) := by
  rcases withStage_cases n owner s with ⟨g, _, q⟩ | ⟨_, q⟩
  · rw [q]; exact acts g
  · rw [q]; exact refuse s _

/-! ## The settings (R7, R117, R165) -/

theorem reqSetCell (s : State) (items : List Item) : AnswersRequest s (Machine.reqSetCell items s) := by
  unfold Machine.reqSetCell
  split
  · exact accept rfl
  · exact refuse s _

theorem reqSetHead (s : State) (head : Nat) (items : List Item) :
    AnswersRequest s (Machine.reqSetHead head items s) := by
  refine withHead head fun h => ?_
  dsimp only
  split
  · split
    · exact refuse s _
    · exact accept (by simp)
  · exact refuse s _

theorem reqSetStage (s : State) (stage : Nat) (items : List Item) :
    AnswersRequest s (Machine.reqSetStage stage items s) := by
  refine withStage stage fun g => ?_
  split
  · split
    · exact accept rfl
    · exact refuse s _
  · exact refuse s _

/-! ## The job manager (R2, R4, R5, R12, R20) -/

theorem reqSubmitJob (s : State) (head : Nat) (raw : RawJob) :
    AnswersRequest s (Machine.reqSubmitJob head raw s) := by
  refine withHead head fun h => ?_
  split
  · exact refuse s _
  · split
    · exact refuse s _
    · exact accept (State.retry_link _)

theorem reqCancelJob (s : State) (head tag : Nat) : AnswersRequest s (Machine.reqCancelJob head tag s) := by
  refine withHead head fun h => ?_
  split
  · exact refuse s _
  · split
    · exact accept (State.leaveJobs_link _ _)
    · split
      · split
        · exact accept (s.takeCause_link h _)
        · exact refuse s _
      · exact refuse s _

theorem reqFlushQueue (s : State) (head : Nat) : AnswersRequest s (Machine.reqFlushQueue head s) :=
  withHead head fun h => accept (s.flushHead_link h)

theorem reqStartHeads (s : State) (set : Byte) : AnswersRequest s (Machine.reqStartHeads set s) :=
  accept (foldl_keeps (P := fun u => u.link = s.link) _ rfl
    fun u h same => (State.startCheck_link (u.modJoint h _) h).trans same)

theorem reqClearFaultHead (s : State) (head : Nat) : AnswersRequest s (Machine.reqClearFaultHead head s) := by
  refine withHead head fun h => ?_
  split
  · exact refuse s _
  · exact accept (State.retry_link _)
  · exact accept rfl

/-! ## The stages (R93, R101, R103, R107) -/

theorem reqLoadFrame (s : State) (stage : Nat) (slots : List RawSlot) :
    AnswersRequest s (Machine.reqLoadFrame stage slots s) := by
  refine withStage stage fun g => ?_
  split
  · exact refuse s _
  · split
    · exact accept rfl
    · exact accept (s.adoptNow_link g _)

theorem reqPowerOn (s : State) (stage : Nat) : AnswersRequest s (Machine.reqPowerOn stage s) := by
  refine withStage stage fun g => ?_
  split
  · split
    · exact accept rfl
    · exact refuse s _
  · exact accept rfl
  · exact accept rfl
  · exact refuse s _

theorem powerDown (s : State) (g : Stage) : AnswersRequest s (s.powerDown g) := by
  unfold State.powerDown
  split
  · exact refuse s _
  · exact accept (s.turnOff_link g)

theorem reqPowerOff (s : State) (stage : Nat) : AnswersRequest s (Machine.reqPowerOff stage s) := by
  refine withStage stage fun g => ?_
  split
  · exact accept rfl
  · exact powerDown s g
  · exact powerDown s g
  · exact accept rfl

theorem reqPower (s : State) (stage order : Nat) : AnswersRequest s (Machine.reqPower stage order s) := by
  unfold Machine.reqPower
  split
  · exact reqPowerOff s stage
  · exact reqPowerOn s stage
  · exact refuse s _

theorem reqClearFaultStage (s : State) (stage : Nat) : AnswersRequest s (Machine.reqClearFaultStage stage s) := by
  refine withStage stage fun g => ?_
  split <;> exact accept rfl

/-! ## The interlock block (R154 to R156) -/

theorem reqHold (s : State) : AnswersRequest s (Machine.reqHold s) := by
  unfold Machine.reqHold
  split <;> exact accept rfl

theorem reqResume (s : State) : AnswersRequest s (Machine.reqResume s) := by
  unfold Machine.reqResume
  split
  · exact accept rfl
  · split
    · exact refuse s _
    · exact accept (State.startChecks_link _ _)
  · exact refuse s _

theorem reqClearFaultDevice (s : State) : AnswersRequest s (Machine.reqClearFaultDevice s) := by
  unfold Machine.reqClearFaultDevice
  split
  · exact accept rfl
  · exact accept rfl
  · split
    · exact accept rfl
    · exact refuse s _

theorem reqClearFault (s : State) (target number : Nat) :
    AnswersRequest s (Machine.reqClearFault target number s) := by
  unfold Machine.reqClearFault
  split
  · exact reqClearFaultHead s number
  · exact reqClearFaultStage s number
  · exact reqClearFaultDevice s
  · exact refuse s _

/-! ## The fetches and the store (R171, R178, R179, R183, R184) -/

theorem reqFetchResults (s : State) : AnswersRequest s (Machine.reqFetchResults s) := by
  refine accept ?_
  split
  · rfl
  · exact State.retry_link _

theorem reqReadRecipe (s : State) (entry : Nat) : AnswersRequest s (Machine.reqReadRecipe entry s) := by
  unfold Machine.reqReadRecipe
  split
  · exact refuse s _
  · split
    · exact accept rfl
    · exact refuse s _

theorem reqProgramRecipe (s : State) (entry : Nat) (record : List Byte) :
    AnswersRequest s (Machine.reqProgramRecipe entry record s) := by
  unfold Machine.reqProgramRecipe
  split
  · exact refuse s _
  · split
    · exact refuse s _
    · split
      · exact refuse s _
      · split
        · exact accept rfl
        · exact refuse s _

theorem reqEraseBank (s : State) (bank : Nat) : AnswersRequest s (Machine.reqEraseBank bank s) := by
  unfold Machine.reqEraseBank
  split
  · exact refuse s _
  · split
    · exact refuse s _
    · exact accept rfl

theorem reqSetProtect (s : State) (working master : Nat) :
    AnswersRequest s (Machine.reqSetProtect working master s) := by
  unfold Machine.reqSetProtect
  split
  · split
    · exact refuse s _
    · exact accept rfl
  · exact refuse s _

/-! ## The readings of a head and of a stage (R25, R98, R119) -/

theorem reqGetHead (s : State) (head : Nat) : AnswersRequest s (Machine.reqGetHead head s) := by
  refine withHead head fun h => ?_
  exact accept rfl

theorem reqGetStage (s : State) (stage : Nat) : AnswersRequest s (Machine.reqGetStage stage s) := by
  refine withStage stage fun g => ?_
  exact accept rfl

theorem reqGetFrame (s : State) (stage : Nat) : AnswersRequest s (Machine.reqGetFrame stage s) := by
  refine withStage stage fun g => ?_
  exact accept rfl

/-- Every request is refused with nothing changed, or accepted with the link left to its reply. -/
theorem takeRequest (q : Request) (s : State) : AnswersRequest s (Machine.takeRequest q s) := by
  cases q with
  | identify | getStatus | reset | fetchEvents | getStore | clearStore => exact accept rfl
  | setCell items => exact reqSetCell s items
  | setHead head items => exact reqSetHead s head items
  | setStage stage items => exact reqSetStage s stage items
  | loadFrame stage slots => exact reqLoadFrame s stage slots
  | submitJob head job => exact reqSubmitJob s head job
  | cancelJob head tag => exact reqCancelJob s head tag
  | flushQueue head => exact reqFlushQueue s head
  | startHeads heads => exact reqStartHeads s heads
  | hold => exact reqHold s
  | resume => exact reqResume s
  | power stage order => exact reqPower s stage order
  | clearFault target number => exact reqClearFault s target number
  | getHead head => exact reqGetHead s head
  | getStage stage => exact reqGetStage s stage
  | getFrame stage => exact reqGetFrame s stage
  | fetchResults => exact reqFetchResults s
  | readRecipe entry => exact reqReadRecipe s entry
  | programRecipe entry record => exact reqProgramRecipe s entry record
  | eraseBank bank => exact reqEraseBank s bank
  | setProtect working master => exact reqSetProtect s working master

end AnswersRequest

/-! ## The request rows (R191) -/

/-- The request a row of the table carries: its kind and its fields. POWER has a row for each order, and CLEAR_FAULT one
for each target. -/
def rowRequest : Instr → Option (Kind × Request)
  | .identify _ _ => some (.identify, .identify)
  | .getStatus _ _ => some (.getStatus, .getStatus)
  | .reset _ _ => some (.reset, .reset)
  | .setCell _ _ items => some (.setCell, .setCell items)
  | .setHead _ _ head items => some (.setHead, .setHead head items)
  | .setStage _ _ stage items => some (.setStage, .setStage stage items)
  | .loadFrame _ _ stage slots => some (.loadFrame, .loadFrame stage slots)
  | .submitJob _ _ head job => some (.submitJob, .submitJob head job)
  | .cancelJob _ _ head tag => some (.cancelJob, .cancelJob head tag)
  | .flushQueue _ _ head => some (.flushQueue, .flushQueue head)
  | .startHeads _ _ heads => some (.startHeads, .startHeads heads)
  | .hold _ _ => some (.hold, .hold)
  | .resume _ _ => some (.resume, .resume)
  | .powerOn _ _ stage => some (.power, .power stage 0x01)
  | .powerOff _ _ stage => some (.power, .power stage 0x00)
  | .clearFaultHead _ _ head => some (.clearFault, .clearFault 0x00 head)
  | .clearFaultStage _ _ stage => some (.clearFault, .clearFault 0x01 stage)
  | .clearFaultDevice _ _ => some (.clearFault, .clearFault 0x02 0)
  | .getHead _ _ head => some (.getHead, .getHead head)
  | .getStage _ _ stage => some (.getStage, .getStage stage)
  | .getFrame _ _ stage => some (.getFrame, .getFrame stage)
  | .fetchResults _ _ => some (.fetchResults, .fetchResults)
  | .fetchEvents _ _ => some (.fetchEvents, .fetchEvents)
  | .readRecipe _ _ entry => some (.readRecipe, .readRecipe entry)
  | .programRecipe _ _ entry record => some (.programRecipe, .programRecipe entry record)
  | .eraseBank _ _ bank => some (.eraseBank, .eraseBank bank)
  | .getStore _ _ => some (.getStore, .getStore)
  | .clearStore _ _ => some (.clearStore, .clearStore)
  | .setProtect _ _ working master => some (.setProtect, .setProtect working master)
  | _ => none

/-- A request row acts as its request, taken at its time by its owner, and its reply answers no frame. -/
theorem exec_of_requestOf {c : Instr} {time : Nat} {tag kind : Byte} (row : requestOf c = some (time, tag, kind)) :
    ∃ k q, rowRequest c = some (k, q) ∧ kind = BitVec.ofNat 8 k.code ∧
      ∀ s, exec c s = atTime time s (respond k tag false (takeRequest q)) := by
  cases c <;> cases row <;> exact ⟨_, _, rfl, rfl, fun _ => rfl⟩

/-- Settles O14: a request row is a request, whose owner refuses it and changes nothing, or accepts it and leaves the
transmitter to the reply. -/
theorem requestsAnsweredOnce : Obligations.RequestsAnsweredOnce := by
  intro c time tag kind s row run
  obtain ⟨k, q, -, rfl, acts⟩ := exec_of_requestOf row
  rw [acts, atTime_run run]
  rcases AnswersRequest.takeRequest q (s.advance time) with ⟨reason, answer⟩ | ⟨t, mark, data, answer, same⟩
  · rw [respond_refuse answer]
    exact ⟨_, refusalReply _ _ _, rfl, rfl, rfl, .inr ⟨rfl, ⟨_, rfl⟩, rfl⟩⟩
  · rw [respond_accept answer]
    refine ⟨_, _, rfl, congrArg (fun l : LinkRec => l.replies ++ [_]) same, rfl, .inl ⟨rfl, ?_⟩⟩
    cases mark
    · exact .inl rfl
    · exact .inr rfl

end Sys2Proof.Machine
end

section
/-! The cell link (R186 to R189, R195): what the receiver makes of a byte and of the bytes of a frame, the receive buffer
and the structural checks, and the reply that has been sent. -/

namespace Sys2Proof.Machine

/-! ## The bytes collected (R186, R187) -/

section

variable {len : Byte}

/-- A length byte above 240 is damage at once. -/
theorem progressOf_above (above : 240 < len.toNat) (bs : List Byte) : progressOf (len :: bs) = .damaged := by
  match bs with
  | [] | [_] => simp [progressOf, maxPayload, above]
  | _ :: _ :: _ => simp [progressOf, maxPayload, above]

/-- Behind a sound length byte a frame goes on until its kind, its tag, its payload and its two CRC bytes stand. -/
theorem progressOf_short (fits : len.toNat ≤ 240) {bs : List Byte} (short : bs.length < len.toNat + 4) :
    progressOf (len :: bs) = .unfinished := by
  have sound : ¬ 240 < len.toNat := by omega
  match bs with
  | [] | [_] => simp [progressOf, maxPayload, sound]
  | _ :: _ :: rest =>
    have goesOn : rest.length < len.toNat + 2 := by simp only [List.length_cons] at short; omega
    simp [progressOf, maxPayload, sound, goesOn]

end

/-- The length byte of a payload that fits holds its length. -/
theorem toNat_lengthByte {payload : List Byte} (fits : payload.length ≤ 240) :
    (BitVec.ofNat 8 payload.length).toNat = payload.length := by
  rw [BitVec.toNat_ofNat]
  exact Nat.mod_eq_of_lt (by omega)

/-- A whole frame is judged by its CRC. -/
theorem progressOf_whole (kind tag : Byte) {payload : List Byte} (fits : payload.length ≤ 240) (c1 c0 : Byte) :
    progressOf (frameBody kind tag payload ++ [c1, c0]) =
      if [c1, c0] = bytesBE 2 (crc16 (frameBody kind tag payload)).toNat then
        .complete { kind := kind, tag := tag, payload := payload }
      else .damaged := by
  have sound : ¬ maxPayload < payload.length := Nat.not_lt.2 fits
  have ended : ¬ (payload ++ [c1, c0]).length < payload.length + 2 := by simp
  rw [frameBody, List.cons_append, List.cons_append, List.cons_append, progressOf, toNat_lengthByte fits, if_neg sound,
    if_neg ended, List.drop_left, List.take_left]

/-! ## A byte arrives (R187) -/

section

variable {s : State} {bs : List Byte}

theorem exec_byteReceived (run : s.inReset = false) (time : Nat) (b : Byte) (stop : Bool) :
    exec (.byteReceived time b stop) s = .next ((s.advance time).byteArrives b stop) :=
  atTime_run run time (·.byteArrives b stop)

theorem State.byteArrives_dropped (hunting : s.link.receiver = .hunting) {b : Byte} (other : b ≠ 0xC3) (stop : Bool) :
    s.byteArrives b stop = s := by
  have noSync : ¬ b = syncByte := other
  simp [State.byteArrives, hunting, noSync]

theorem State.byteArrives_sync (hunting : s.link.receiver = .hunting) : s.byteArrives 0xC3 true = s.collect [] := by
  simp [State.byteArrives, hunting, syncByte]

theorem State.byteArrives_noStopBit (inFrame : s.link.receiver = .inFrame bs) (b : Byte) :
    s.byteArrives b false = s.discardFrame := by
  simp [State.byteArrives, inFrame]

theorem State.byteArrives_inFrame (inFrame : s.link.receiver = .inFrame bs) (b : Byte) :
    s.byteArrives b true = s.frameByte (bs ++ [b]) := by
  simp [State.byteArrives, inFrame]

theorem State.frameByte_unfinished (s : State) (goesOn : progressOf bs = .unfinished) :
    s.frameByte bs = s.collect bs := by
  rw [State.frameByte, goesOn]

theorem State.frameByte_damaged (s : State) (damaged : progressOf bs = .damaged) : s.frameByte bs = s.discardFrame := by
  rw [State.frameByte, damaged]

end

/-- Settles O20, by the receiver's state and what the byte amounts to. -/
theorem receiverTakesBytes : Obligations.ReceiverTakesBytes := by
  intro time b s run
  refine ⟨fun stop hunting other => ?_, fun hunting => ?_, fun bs inFrame => ?_, fun start above => ?_,
    fun start fits => ?_, fun e on => ?_⟩
  · rw [exec_byteReceived run, State.byteArrives_dropped (s := s.advance time) hunting other]
    rfl
  · rw [exec_byteReceived run, State.byteArrives_sync (s := s.advance time) hunting]
    rfl
  · rw [exec_byteReceived run, State.byteArrives_noStopBit (s := s.advance time) inFrame]
    rfl
  · rw [exec_byteReceived run, State.byteArrives_inFrame (s := s.advance time) start]
    exact congrArg Host.Outcome.next (State.frameByte_damaged (s.advance time) (progressOf_above above []))
  · rw [exec_byteReceived run, State.byteArrives_inFrame (s := s.advance time) start]
    exact congrArg Host.Outcome.next (State.frameByte_unfinished (s.advance time)
      (progressOf_short fits (Nat.succ_pos _)))
  · exact atExpiry_run run on State.discardFrame

/-! ## The bytes of a frame (R186, R187) -/

section

variable {s : State} {time : Nat}

/-- One byte of a feed, and the bytes behind it. -/
theorem feed_cons (run : s.inReset = false) (b : Byte) (bs : List Byte) :
    feed time (b :: bs) s = feed time bs ((s.advance time).byteArrives b true) := by
  rw [feed, exec_byteReceived run]

/-- A part already at the time of the bytes keeps its clock. -/
theorem State.advance_collect (s : State) (time : Nat) (bs : List Byte) :
    ((s.advance time).collect bs).advance time = (s.advance time).collect bs := by
  simp [State.advance, State.collect]

/-- A byte that leaves its frame unfinished joins the bytes collected. -/
theorem feed_collects (run : s.inReset = false) {bs : List Byte} {b : Byte}
    (goesOn : progressOf (bs ++ [b]) = .unfinished) (rest : List Byte) :
    feed time (b :: rest) ((s.advance time).collect bs) = feed time rest ((s.advance time).collect (bs ++ [b])) := by
  rw [feed_cons (s := (s.advance time).collect bs) run, State.advance_collect, State.byteArrives_inFrame rfl,
    State.frameByte_unfinished _ goesOn]
  rfl

/-- Bytes that do not reach the end of the frame are all collected. -/
theorem feed_short (run : s.inReset = false) {len : Byte} (fits : len.toNat ≤ 240) (bs rest : List Byte)
    {before : List Byte} (short : (before ++ bs).length < len.toNat + 4) :
    feed time (bs ++ rest) ((s.advance time).collect (len :: before)) =
      feed time rest ((s.advance time).collect (len :: (before ++ bs))) := by
  induction bs generalizing before with
  | nil => rw [List.append_nil]; rfl
  | cons b bs ih =>
    have goesOn : progressOf (len :: (before ++ [b])) = .unfinished :=
      progressOf_short fits (by simp only [List.length_append, List.length_cons, List.length_nil] at short ⊢; omega)
    rw [List.append_cons] at short ⊢
    exact (feed_collects run goesOn (bs ++ rest)).trans (ih short)

/-- A hunting receiver takes the bytes of a frame up to the last: with the CRC of the frame it is complete, and with
any other it is discarded. -/
theorem feed_frame (run : s.inReset = false) (hunting : s.link.receiver = .hunting) (kind tag : Byte)
    {payload : List Byte} (fits : payload.length ≤ 240) (c1 c0 : Byte) :
    feed time (0xC3 :: frameBody kind tag payload ++ [c1, c0]) s =
      .next (if [c1, c0] = bytesBE 2 (crc16 (frameBody kind tag payload)).toNat then
          (s.advance time).hunt.acceptFrame { kind := kind, tag := tag, payload := payload }
        else (s.advance time).discardFrame) := by
  have fitsByte : (BitVec.ofNat 8 payload.length).toNat ≤ 240 := by rw [toNat_lengthByte fits]; exact fits
  have bytes : 0xC3 :: frameBody kind tag payload ++ [c1, c0] =
      0xC3 :: BitVec.ofNat 8 payload.length :: ((kind :: tag :: payload ++ [c1]) ++ [c0]) := by
    simp [frameBody]
  have whole : BitVec.ofNat 8 payload.length :: (kind :: tag :: payload ++ [c1]) ++ [c0] =
      frameBody kind tag payload ++ [c1, c0] := by
    simp [frameBody]
  calc feed time (0xC3 :: frameBody kind tag payload ++ [c1, c0]) s
      = feed time (BitVec.ofNat 8 payload.length :: ((kind :: tag :: payload ++ [c1]) ++ [c0]))
          ((s.advance time).collect []) := by
        rw [bytes, feed_cons run, State.byteArrives_sync (s := s.advance time) hunting]
    _ = feed time ((kind :: tag :: payload ++ [c1]) ++ [c0])
          ((s.advance time).collect [BitVec.ofNat 8 payload.length]) :=
        feed_collects run (progressOf_short fitsByte (by simp)) _
    _ = feed time [c0]
          ((s.advance time).collect (BitVec.ofNat 8 payload.length :: (kind :: tag :: payload ++ [c1]))) :=
        feed_short (before := []) run fitsByte _ _ (by simp [toNat_lengthByte fits])
    _ = .next (((s.advance time).collect (BitVec.ofNat 8 payload.length :: (kind :: tag :: payload ++ [c1]))).frameByte
          (frameBody kind tag payload ++ [c1, c0])) := by
        rw [feed_cons (s := (s.advance time).collect _) run, State.advance_collect, State.byteArrives_inFrame rfl, whole,
          feed]
    _ = _ := by
        rw [State.frameByte, progressOf_whole kind tag fits]
        by_cases own : [c1, c0] = bytesBE 2 (crc16 (frameBody kind tag payload)).toNat
        · rw [if_pos own, if_pos own]; rfl
        · rw [if_neg own, if_neg own]; rfl

/-- A complete frame that fits reaches the receive buffer of a hunting receiver (R188). -/
theorem exec_frameReceived (run : s.inReset = false) (kind tag : Byte) {payload : List Byte}
    (fits : payload.length ≤ 240) :
    exec (.frameReceived time kind tag payload) s =
      .next ((s.advance time).hunt.acceptFrame { kind := kind, tag := tag, payload := payload }) := by
  refine (atTime_run run time (·.frameArrives _)).trans (congrArg Host.Outcome.next ?_)
  exact if_pos fits

/-- A frame discarded behind a hunting receiver leaves it hunting. -/
theorem State.discardFrame_hunting (hunting : s.link.receiver = .hunting) :
    s.discardFrame = { s with link := { s.link with gapTimer := none,
                                                    linkErrors := min (s.link.linkErrors + 1) 65535 } } := by
  rw [State.discardFrame, State.hunt, ← hunting]
  rfl

end

/-- Settles O18: both CRC bytes of a frame are the frame's own, or the frame is discarded at the last of them. -/
theorem frameBytesMakeFrame : Obligations.FrameBytesMakeFrame := by
  intro time kind tag payload s run hunting fits
  refine ⟨?_, fun c1 c0 wrong => ?_⟩
  · rw [exec_frameReceived run kind tag fits]
    exact (feed_frame run hunting kind tag fits _ _).trans (congrArg Host.Outcome.next (if_pos rfl))
  · rw [feed_frame run hunting kind tag fits, if_neg wrong, State.discardFrame_hunting (s := s.advance time) hunting]
    rfl

/-! ## The receive buffer (R188, R190) -/

/-- The kind codes are 1 to 26. -/
theorem Kind.ofCode?_eq_none_iff (n : Nat) : Kind.ofCode? n = none ↔ n = 0 ∨ 26 < n := by
  rcases Nat.lt_or_ge 26 n with above | within
  · obtain ⟨m, rfl⟩ : ∃ m, n = m + 27 := ⟨n - 27, by omega⟩
    exact iff_of_true rfl (.inr above)
  · have codes : ∀ m < 27, Kind.ofCode? m = none ↔ m = 0 ∨ 26 < m := by decide
    exact codes n (Nat.lt_succ_of_le within)

section

variable {s : State} {f : LinkFrame}

theorem State.takeFrame_unknown (unknown : Kind.ofCode? f.kind.toNat = none) :
    s.takeFrame f = s.refuseFrame f .unknownKind := by
  rw [State.takeFrame, unknown]

theorem State.takeFrame_misfit {k : Kind} (known : Kind.ofCode? f.kind.toNat = some k)
    (misfit : parsePayload k f.payload = none) : s.takeFrame f = s.refuseFrame f .badLength := by
  simp only [State.takeFrame, known, misfit]

theorem State.takeFrame_sound {k : Kind} {q : Request} (known : Kind.ofCode? f.kind.toNat = some k)
    (sound : parsePayload k f.payload = some q) : s.takeFrame f = respond k f.tag true (takeRequest q) s := by
  simp only [State.takeFrame, known, sound]

theorem State.acceptFrame_empty (empty : s.link.processing = none) : s.acceptFrame f = s.process f := by
  rcases s.acceptFrame_cases f with ⟨_, q⟩ | ⟨held, _⟩ | ⟨held, _⟩
  · exact q
  all_goals simp [empty] at held

theorem State.acceptFrame_one {p : LinkFrame} (held : s.link.processing = some p) (free : s.link.waiting = none) :
    s.acceptFrame f = { s with link := { s.link with waiting := some f } } := by
  simp only [State.acceptFrame, held, free]

theorem State.acceptFrame_two {p w : LinkFrame} (held : s.link.processing = some p)
    (waits : s.link.waiting = some w) :
    s.acceptFrame f = { s with link := { s.link with overruns := min (s.link.overruns + 1) 65535 } } := by
  simp only [State.acceptFrame, held, waits, maxWord]

end

/-- Settles O19, by the frames held, and with an empty buffer by the structural checks. -/
theorem frameBuffering : Obligations.FrameBuffering := by
  refine ⟨Kind.ofCode?_eq_none_iff, fun time kind tag payload s run fits => ?_⟩
  intro f s1 taken refused
  rw [exec_frameReceived run kind tag fits]
  refine ⟨fun empty => ?_, fun p held free => ?_, fun p w held waits => ?_⟩
  · have accepted : (s.advance time).hunt.acceptFrame f = taken.takeFrame f := State.acceptFrame_empty (s := s1) empty
    refine ⟨fun unknown => ?_, fun k known misfit => ?_, fun k q known sound => ?_⟩
    · exact congrArg Host.Outcome.next (accepted.trans (State.takeFrame_unknown unknown))
    · exact congrArg Host.Outcome.next (accepted.trans (State.takeFrame_misfit known misfit))
    · exact congrArg Host.Outcome.next (accepted.trans (State.takeFrame_sound known sound))
  · exact congrArg Host.Outcome.next (State.acceptFrame_one (s := s1) held free)
  · exact congrArg Host.Outcome.next (State.acceptFrame_two (s := s1) held waits)

/-! ## The transmitter (R188, R189, R195) -/

section

variable {s : State} {r : Reply} {rest : List Reply}

theorem State.replyGone_idle (idle : s.link.replies = []) : s.replyGone = s := by
  rw [State.replyGone, idle]

/-- A RESET request's reply is followed by the warm reset, at a free strap level. -/
theorem State.replyGone_resets (sent : s.link.replies = r :: rest) (resets : r.resets = true) :
    s.replyGone = State.warmReset { s with link := { s.link with replies := rest }, choices := s.choices + 1 } .request
      (Config.strapLevel s.choices) := by
  simp only [State.replyGone, sent, resets, if_true]
  rfl

/-- The reply of a request row leaves the buffer as it is. -/
theorem State.replyGone_row (sent : s.link.replies = r :: rest) (stays : r.resets = false)
    (row : r.answersFrame = false) : s.replyGone = { s with link := { s.link with replies := rest } } := by
  simp [State.replyGone, sent, stays, row]

/-- The reply of the frame in processing frees its place. -/
theorem State.replyGone_frame (sent : s.link.replies = r :: rest) (stays : r.resets = false)
    (frame : r.answersFrame = true) :
    s.replyGone = State.nextFrame { s with link := { s.link with replies := rest } } := by
  simp [State.replyGone, sent, stays, frame]

theorem State.nextFrame_none (alone : s.link.waiting = none) :
    s.nextFrame = { s with link := { s.link with processing := none } } := by
  rw [State.nextFrame, alone]

theorem State.nextFrame_some {f : LinkFrame} (waits : s.link.waiting = some f) :
    s.nextFrame = State.takeFrame { s with link := { s.link with waiting := none, processing := some f } } f := by
  simp only [State.nextFrame, waits]
  rfl

end

/-- Settles O21, by the reply that has been sent: none, RESET's, a row's, or the frame's in processing. -/
theorem replySentAdvancesBuffer : Obligations.ReplySentAdvancesBuffer := by
  intro time s run
  have acts : exec (.replySent time) s = .next (s.advance time).replyGone := atTime_run run time _
  rw [acts]
  refine ⟨fun idle => ?_, fun tag => ?_, fun r rest sent => ?_⟩
  · exact congrArg Host.Outcome.next (State.replyGone_idle (s := s.advance time) idle)
  · exact atTime_run run time _
  · intro s1 strap
    refine ⟨fun resets => ?_, fun stays => ⟨fun row => ?_, fun frame alone => ?_, fun f frame waits => ?_⟩⟩
    · exact congrArg Host.Outcome.next (State.replyGone_resets (s := s.advance time) sent resets)
    · exact congrArg Host.Outcome.next (State.replyGone_row (s := s.advance time) sent stays row)
    · rw [State.replyGone_frame (s := s.advance time) sent stays frame]
      exact congrArg Host.Outcome.next (State.nextFrame_none (s := s1) alone)
    · rw [State.replyGone_frame (s := s.advance time) sent stays frame]
      exact congrArg Host.Outcome.next (State.nextFrame_some (s := s1) waits)

end Sys2Proof.Machine
end

section
/-! The fields that are the model's own (log entries 1, 5, 26) over every command: the clock, the choice counter and the
queue of waiting commands. Only a command moves the clock and only a free choice counts, so every other operation leaves
the three as they are, which one lemma per operation says (`State.<operation>_own`); every command then answers a state
that comes after its own (`exec_completesAfter`). -/

namespace Sys2Proof.Machine

/-- The model's own fields: the clock, the choice counter and the queue of waiting commands. -/
def State.own (s : State) : Nat × Nat × List Instr := (s.now, s.choices, s.pending)

section

variable (s : State)

/-! ## The shared operations leave the model's own fields -/

@[simp] theorem State.setHead_own (h : Head) (r : HeadRec) : (s.setHead h r).own = s.own := rfl
@[simp] theorem State.modHead_own (h : Head) (f : HeadRec → HeadRec) : (s.modHead h f).own = s.own := rfl
@[simp] theorem State.modJoint_own (h : Head) (f : Joint → Joint) : (s.modJoint h f).own = s.own := rfl
@[simp] theorem State.setStage_own (g : Stage) (r : StageRec) : (s.setStage g r).own = s.own := rfl
@[simp] theorem State.modStage_own (g : Stage) (f : StageRec → StageRec) : (s.modStage g f).own = s.own := rfl
@[simp] theorem State.send_own (g : Stage) (o : StageOrder) : (s.send g o).own = s.own := rfl
@[simp] theorem State.raise_own (e : Event) : (s.raise e).own = s.own := rfl

@[simp] theorem State.setInput_own (i : LineInput) (x : Input) : (s.setInput i x).own = s.own := by cases i <;> rfl

@[simp] theorem State.takeLevel_own (i : LineInput) : (s.takeLevel i).own = s.own := State.setInput_own _ _ _

/-- Acts that leave the model's own fields leave them when the heads act in turn. -/
theorem State.eachHead_own (test : State → Head → Bool) {act : Head → State → State}
    (same : ∀ h u, (act h u).own = u.own) : (s.eachHead test act).own = s.own :=
  State.eachHead_keeps (P := fun u => u.own = s.own) rfl fun h u kept _ => (same h u).trans kept

/-- Acts that leave the model's own fields leave them when they are folded. -/
theorem foldl_own {α : Type} (xs : List α) {act : State → α → State} (same : ∀ u x, (act u x).own = u.own) :
    (xs.foldl act s).own = s.own :=
  foldl_keeps (P := fun u => u.own = s.own) xs rfl fun u x kept => (same u x).trans kept

/-! ## The job manager (R5 to R18, R181) -/

/-- The job manager's moves touch none of the model's own fields. -/
theorem keepsJobMoves_own (own : Nat × Nat × List Instr) : KeepsJobMoves fun u => u.own = own where
  activates same _ _ := same
  loads same := same
  starts same _ := same
  ends {u h o} same := by
    have around := (SameAround.refl u).endCore h o
    rw [← same, State.own, around.now, around.choices, around.pending, State.own]
  queues same := same
  suspends same := same

@[simp] theorem State.retry_own : s.retry.own = s.own := (keepsJobMoves_own s.own).retry rfl

@[simp] theorem State.startChecks_own (hs : List Head) : (s.startChecks hs).own = s.own :=
  (keepsJobMoves_own s.own).startChecks rfl hs

@[simp] theorem State.startCheck_own (h : Head) : (s.startCheck h).own = s.own :=
  (keepsJobMoves_own s.own).startCheck rfl h

@[simp] theorem State.endRecorded_own (h : Head) : (s.endRecorded h).own = s.own :=
  (keepsJobMoves_own s.own).endRecorded rfl h

@[simp] theorem State.takeCause_own (h : Head) (o : JointOutcome) : (s.takeCause h o).own = s.own :=
  (keepsJobMoves_own s.own).takeCause (fun same => same) (fun same _ => same) rfl h o

@[simp] theorem State.takeCause?_own (h : Head) (o : Option JointOutcome) : (s.takeCause? h o).own = s.own := by
  cases o with
  | none => rfl
  | some o => exact s.takeCause_own h o

@[simp] theorem State.serveAll_own : s.serveAll.own = s.own :=
  (keepsJobMoves_own s.own).serveWaiting (fun same _ => same) _ rfl

@[simp] theorem State.leaveJobs_own (jobs : List Job) : (s.leaveJobs jobs).own = s.own := by
  obtain ⟨_, _, only, _⟩ := s.leaveJobs_only jobs
  rw [only]; rfl

@[simp] theorem State.flushHead_own (h : Head) : (s.flushHead h).own = s.own := State.leaveJobs_own _ _

/-! ## The slot scheduler (R74 to R95) -/

@[simp] theorem State.decideSlot_own (g : Stage) : (s.decideSlot g).own = s.own := by
  obtain ⟨r, only | ⟨h, d, sent, only⟩, _⟩ := s.decideSlot_only g <;> rw [only] <;> rfl

@[simp] theorem State.decideOrDefer_own (g : Stage) : (s.decideOrDefer g).own = s.own := by
  rcases s.decideOrDefer_cases g with ⟨_, q⟩ | ⟨_, q⟩ <;> simp [q]

@[simp] theorem State.decideDeferred_own (g : Stage) : (s.decideDeferred g).own = s.own := by
  unfold State.decideDeferred
  split <;> simp

@[simp] theorem State.dropOvertaken_own (g : Stage) : (s.dropOvertaken g).own = s.own := by
  unfold State.dropOvertaken
  split <;> rfl

@[simp] theorem State.adoptPending_own (g : Stage) : (s.adoptPending g).own = s.own := by
  rcases s.adoptPending_cases g with ⟨_, _, q⟩ | ⟨_, q⟩ <;> simp [q]

@[simp] theorem State.startSlot_own (g : Stage) (n t : Nat) : (s.startSlot g n t).own = s.own := by
  unfold State.startSlot
  split
  · split <;> simp
  · rfl

@[simp] theorem State.startFrame_own (g : Stage) (t : Nat) : (s.startFrame g t).own = s.own := by
  unfold State.startFrame
  split
  · split <;> simp
  · rfl

@[simp] theorem State.slotExpiry_own (g : Stage) (run : Running) : (s.slotExpiry g run).own = s.own := by
  unfold State.slotExpiry State.nextSlot
  split
  · split <;> simp
  · simp

@[simp] theorem State.splitExpiry_own (g : Stage) (run : Running) (t : Nat) : (s.splitExpiry g run t).own = s.own := by
  simp [State.splitExpiry]

@[simp] theorem State.adoptNow_own (g : Stage) (f : List Slot) : (s.adoptNow g f).own = s.own := by
  unfold State.adoptNow
  dsimp only
  split <;> simp

/-! ## The stage interface (R101 to R113) -/

@[simp] theorem State.enterReady_own (g : Stage) (checksFirst : Bool) : (s.enterReady g checksFirst).own = s.own := by
  unfold State.enterReady State.checkMembers State.startReadyFrame
  dsimp only
  split <;> simp

@[simp] theorem State.stopIfReady_own (g : Stage) (before : StageMode) : (s.stopIfReady g before).own = s.own := by
  rcases s.stopIfReady_cases g before with ⟨_, q⟩ | ⟨_, q⟩ <;> simp [q]

@[simp] theorem State.faultMembers_own (g : Stage) : (s.faultMembers g).own = s.own :=
  s.eachHead_own _ fun h u => u.takeCause_own h .stageFault

@[simp] theorem State.enterFault_own (g : Stage) (cause : FaultCause) (code : Nat) :
    (s.enterFault g cause code).own = s.own := by
  simp [State.enterFault, State.faultStage]

@[simp] theorem State.turnOff_own (g : Stage) : (s.turnOff g).own = s.own := by simp [State.turnOff]

@[simp] theorem State.estopStage_own (g : Stage) : (s.estopStage g).own = s.own := by
  rcases s.estopStage_cases g with ⟨_, q⟩ | ⟨_, q⟩ <;> simp [q]

@[simp] theorem State.busReported_own (g : Stage) (ready : Bool) : (s.busReported g ready).own = s.own := by
  unfold State.busReported
  dsimp only
  split <;> simp

@[simp] theorem State.tripReported_own (g : Stage) (code : Nat) : (s.tripReported g code).own = s.own := by
  unfold State.tripReported
  split <;> simp

@[simp] theorem State.settleExpired_own (g : Stage) (checksFirst : Bool) :
    (s.settleExpired g checksFirst).own = s.own := by
  unfold State.settleExpired
  split <;> simp

/-! ## The work of a segment report (R34, R41, R111, R124 to R132) -/

@[simp] theorem State.raise?_own (e : Option Event) : (s.raise? e).own = s.own := by cases e <;> rfl

@[simp] theorem State.searchStep_own (h : Head) : (s.searchStep h).state.own = s.own := by
  unfold State.searchStep
  dsimp only
  split <;> rfl

@[simp] theorem State.tunerTakes_own (h : Head) (rep : SegReport) : (s.tunerTakes h rep).state.own = s.own := by
  unfold State.tunerTakes
  dsimp only
  split
  · split
    · rfl
    · exact s.searchStep_own h
  · split <;> rfl
  · rfl

@[simp] theorem State.enterHeating_own (h : Head) : (s.enterHeating h).1.own = s.own := by
  unfold State.enterHeating
  split <;> rfl

@[simp] theorem State.heatChecks_own (h : Head) (heating : Bool) : (s.heatChecks h heating).1.own = s.own := by
  unfold State.heatChecks
  split
  · rfl
  · split
    · split <;> rfl
    · rfl

@[simp] theorem State.takeTuner_own (h : Head) (reply : TunerReply) : (s.takeTuner h reply).own = s.own := by
  cases reply <;> simp [State.takeTuner]

@[simp] theorem State.tunerThenHeat_own (h : Head) (heating : Bool) (reply : TunerReply) :
    (s.tunerThenHeat h heating reply).own = s.own := by
  cases reply with
  | nothing => simp [State.tunerThenHeat]
  | lock =>
    simp only [State.tunerThenHeat]
    split <;> simp
  | cause o => simp [State.tunerThenHeat]

@[simp] theorem State.flagPassedCeiling_own (h : Head) (w : TunerWork) : (s.flagPassedCeiling h w).own = s.own := by
  unfold State.flagPassedCeiling
  split <;> rfl

@[simp] theorem State.reportWork_own (h : Head) (rep : SegReport) (order : ReportOrder) (eventFirst : Bool) :
    (s.reportWork h rep order eventFirst).own = s.own := by
  cases order with
  | tunerCauseFirst => simp [State.reportWork]
  | tunerActsFirst =>
    simp only [State.reportWork]
    split <;> simp
  | heatFirst =>
    simp only [State.reportWork]
    split <;> simp

@[simp] theorem State.handReport_own (h : Head) (rep : SegReport) (ordered : Nat) (order : ReportOrder)
    (eventFirst : Bool) : (s.handReport h rep ordered order eventFirst).own = s.own := by
  unfold State.handReport
  split <;> simp [State.countReport]

@[simp] theorem State.segmentReported_own (g : Stage) (rep : SegReport) (order : ReportOrder) (eventFirst : Bool) :
    (s.segmentReported g rep order eventFirst).own = s.own := by
  unfold State.segmentReported
  split
  · rfl
  · dsimp only
    split <;> simp [State.dropSegment]

/-! ## The phase timers and the samples (R38, R42, R144) -/

@[simp] theorem State.phaseExits_own (h : Head) : (s.phaseExits h).own = s.own := by
  unfold State.phaseExits
  split <;> simp

@[simp] theorem State.durationExpired_own (h : Head) : (s.durationExpired h).own = s.own := by
  unfold State.durationExpired
  split
  · split <;> simp
  · rfl

@[simp] theorem State.heatSample_own (h : Head) : (s.heatSample h).own = s.own := by
  unfold State.heatSample
  split
  · dsimp only
    split <;> simp
  · rfl

@[simp] theorem State.checkSample_own (h : Head) : (s.checkSample h).own = s.own := by
  unfold State.checkSample
  split
  · simp
  · split <;> simp

@[simp] theorem State.sample_own (h : Head) (m : Sample) : (s.sample h m).own = s.own := by
  unfold State.sample
  split
  · dsimp only
    split <;> simp
  · rfl

/-! ## The interlock block (R152 to R164) -/

@[simp] theorem State.lineChange_own (i : LineInput) (level : Level) : (s.lineChange i level).own = s.own := by
  unfold State.lineChange
  split <;> simp

@[simp] theorem State.estopStages_own : s.estopStages.own = s.own := by simp [State.estopStages]

@[simp] theorem State.estopJoints_own : s.estopJoints.own = s.own :=
  s.eachHead_own _ fun h u => u.takeCause_own h .abortedEstop

@[simp] theorem State.estopActs_own (stagesFirst : Bool) (place : EventPlace) :
    (s.estopActs stagesFirst place).own = s.own := by
  unfold State.estopActs
  cases stagesFirst <;> cases place <;> simp

/-- An ESTOP assertion makes one free choice (log entries 8, 26), and leaves the model's own fields beyond it. -/
theorem State.estopTaken_own : s.estopTaken.own = s.chose.own := State.estopActs_own _ _ _

@[simp] theorem State.motionFlush_own : s.motionFlush.own = s.own := by
  unfold State.motionFlush
  split
  · exact foldl_own s _ State.flushHead_own
  · rfl

@[simp] theorem State.motionAssert_own : s.motionAssert.own = s.own := by
  unfold State.motionAssert
  split
  · rw [State.eachHead_own _ _ fun h u => u.takeCause_own h .abortedMotion, State.motionFlush_own]; rfl
  · rfl

@[simp] theorem State.raiseIf_own (b : Bool) (e : Event) : (s.raiseIf b e).own = s.own := by cases b <;> rfl

@[simp] theorem State.clampFell_own (h : Head) : (s.clampFell h).own = s.own := by simp [State.clampFell]

@[simp] theorem State.clampSeen_own (h : Head) : (s.clampSeen h).own = s.own := by
  unfold State.clampSeen
  split <;> rfl

@[simp] theorem State.clampRose_own (h : Head) : (s.clampRose h).own = s.own := by simp [State.clampRose]

@[simp] theorem State.flowFell_own (h : Head) : (s.flowFell h).own = s.own := by
  unfold State.flowFell
  dsimp only
  split <;> rfl

@[simp] theorem State.flowRose_own (h : Head) : (s.flowRose h).own = s.own := by simp [State.flowRose, State.setGrace]

@[simp] theorem State.graceExpired_own (h : Head) : (s.graceExpired h).own = s.own := by
  simp [State.graceExpired, State.setGrace]

/-! ## The store (R180, R182) -/

@[simp] theorem State.setStore_own (t : StoreRec) : State.own { s with store := t } = s.own := rfl

@[simp] theorem State.storeDone_own (t : StoreRec) (e : Event) : (s.storeDone t e).own = s.own := by
  unfold State.storeDone
  dsimp only
  split <;> simp

@[simp] theorem State.programDone_own (passed : Bool) : (s.programDone passed).own = s.own := by
  unfold State.programDone
  split <;> simp

@[simp] theorem State.eraseDone_own (passed : Bool) : (s.eraseDone passed).own = s.own := by
  unfold State.eraseDone
  split <;> simp

@[simp] theorem State.suspendEnds_own : s.suspendEnds.own = s.own := State.serveAll_own _

/-! ## The requests (R191) -/

@[simp] theorem State.enableHead_own (h : Head) (enable : Option Nat) : (s.enableHead h enable).own = s.own := by
  unfold State.enableHead State.turnHeadOff State.turnHeadOn
  split
  · split <;> simp
  · split <;> simp
  · rfl

/-- The owner of a head's request leaves the model's own fields, and so does the request. -/
theorem withHead_own (n : Nat) {owner : Head → State → State × Answer} (same : ∀ h, (owner h s).1.own = s.own) :
    (withHead n owner s).1.own = s.own :=
  withHead_keeps (P := fun u => u.own = s.own) rfl n same

/-- The owner of a stage's request leaves the model's own fields, and so does the request. -/
theorem withStage_own (n : Nat) {owner : Stage → State → State × Answer} (same : ∀ g, (owner g s).1.own = s.own) :
    (withStage n owner s).1.own = s.own :=
  withStage_keeps (P := fun u => u.own = s.own) rfl n same

theorem reqSetCell_own (items : List Item) : (reqSetCell items s).1.own = s.own := by
  unfold reqSetCell
  split <;> rfl

theorem reqSetHead_own (head : Nat) (items : List Item) : (reqSetHead head items s).1.own = s.own := by
  refine withHead_own s head fun h => ?_
  dsimp only
  split
  · split <;> simp
  · rfl

theorem reqSetStage_own (stage : Nat) (items : List Item) : (reqSetStage stage items s).1.own = s.own := by
  refine withStage_own s stage fun g => ?_
  split
  · split <;> rfl
  · rfl

theorem reqLoadFrame_own (stage : Nat) (slots : List RawSlot) : (reqLoadFrame stage slots s).1.own = s.own := by
  refine withStage_own s stage fun g => ?_
  split
  · rfl
  · split <;> simp

theorem reqSubmitJob_own (head : Nat) (raw : RawJob) : (reqSubmitJob head raw s).1.own = s.own := by
  refine withHead_own s head fun h => ?_
  split
  · rfl
  · split
    · rfl
    · exact State.retry_own _

theorem reqCancelJob_own (head tag : Nat) : (reqCancelJob head tag s).1.own = s.own := by
  refine withHead_own s head fun h => ?_
  split
  · rfl
  · split
    · exact State.leaveJobs_own _ _
    · split
      · split <;> simp
      · rfl

theorem reqStartHeads_own (set : Byte) : (reqStartHeads set s).1.own = s.own :=
  foldl_own s _ fun u h => by simp [State.seeStart]

theorem reqHold_own : (reqHold s).1.own = s.own := by
  unfold reqHold
  split <;> rfl

theorem reqResume_own : (reqResume s).1.own = s.own := by
  unfold reqResume
  split
  · rfl
  · split
    · rfl
    · exact State.startChecks_own _ _
  · rfl

theorem reqPowerOn_own (stage : Nat) : (reqPowerOn stage s).1.own = s.own := by
  refine withStage_own s stage fun g => ?_
  split
  · split <;> rfl
  all_goals rfl

theorem State.powerDown_own (g : Stage) : (s.powerDown g).1.own = s.own := by
  unfold State.powerDown
  split
  · rfl
  · exact s.turnOff_own g

theorem reqPowerOff_own (stage : Nat) : (reqPowerOff stage s).1.own = s.own := by
  refine withStage_own s stage fun g => ?_
  split
  · rfl
  · exact s.powerDown_own g
  · exact s.powerDown_own g
  · rfl

theorem reqPower_own (stage order : Nat) : (reqPower stage order s).1.own = s.own := by
  unfold reqPower
  split
  · exact reqPowerOff_own s stage
  · exact reqPowerOn_own s stage
  · rfl

theorem reqClearFaultHead_own (head : Nat) : (reqClearFaultHead head s).1.own = s.own := by
  refine withHead_own s head fun h => ?_
  split <;> simp

theorem reqClearFaultStage_own (stage : Nat) : (reqClearFaultStage stage s).1.own = s.own := by
  refine withStage_own s stage fun g => ?_
  split <;> rfl

theorem reqClearFaultDevice_own : (reqClearFaultDevice s).1.own = s.own := by
  unfold reqClearFaultDevice
  split
  · rfl
  · rfl
  · split <;> rfl

theorem reqClearFault_own (target number : Nat) : (reqClearFault target number s).1.own = s.own := by
  unfold reqClearFault
  split
  · exact reqClearFaultHead_own s number
  · exact reqClearFaultStage_own s number
  · exact reqClearFaultDevice_own s
  · rfl

theorem reqFetchResults_own : (reqFetchResults s).1.own = s.own := by
  unfold reqFetchResults
  dsimp only
  split
  · rfl
  · exact State.retry_own _

theorem reqProgramRecipe_own (entry : Nat) (record : List Byte) : (reqProgramRecipe entry record s).1.own = s.own := by
  unfold reqProgramRecipe
  split
  · rfl
  · split
    · rfl
    · split
      · rfl
      · split <;> rfl

theorem reqEraseBank_own (bank : Nat) : (reqEraseBank bank s).1.own = s.own := by
  unfold reqEraseBank
  split
  · rfl
  · split <;> rfl

theorem reqSetProtect_own (working master : Nat) : (reqSetProtect working master s).1.own = s.own := by
  unfold reqSetProtect
  split
  · split <;> rfl
  · rfl

/-- The owner of every request leaves the model's own fields. -/
theorem takeRequest_own (q : Request) : (takeRequest q s).1.own = s.own := by
  cases q with
  | identify | getStatus | reset | fetchEvents | getStore | clearStore => rfl
  | setCell items => exact reqSetCell_own s items
  | setHead head items => exact reqSetHead_own s head items
  | setStage stage items => exact reqSetStage_own s stage items
  | loadFrame stage slots => exact reqLoadFrame_own s stage slots
  | submitJob head job => exact reqSubmitJob_own s head job
  | cancelJob head tag => exact reqCancelJob_own s head tag
  | flushQueue head => exact withHead_own s head fun h => s.flushHead_own h
  | startHeads heads => exact reqStartHeads_own s heads
  | hold => exact reqHold_own s
  | resume => exact reqResume_own s
  | power stage order => exact reqPower_own s stage order
  | clearFault target number => exact reqClearFault_own s target number
  | getHead head => exact withHead_own s head fun _ => rfl
  | getStage stage => exact withStage_own s stage fun _ => rfl
  | getFrame stage => exact withStage_own s stage fun _ => rfl
  | fetchResults => exact reqFetchResults_own s
  | readRecipe entry => exact congrArg State.own (reqReadRecipe_state entry s)
  | programRecipe entry record => exact reqProgramRecipe_own s entry record
  | eraseBank bank => exact reqEraseBank_own s bank
  | setProtect working master => exact reqSetProtect_own s working master

@[simp] theorem respond_own (k : Kind) (tag : Byte) (frame : Bool) (q : Request) :
    (respond k tag frame (takeRequest q) s).own = s.own :=
  takeRequest_own s q

/-! ## The cell link (R187, R188) -/

@[simp] theorem State.setLink_own (l : LinkRec) : State.own { s with link := l } = s.own := rfl

@[simp] theorem State.process_own (f : LinkFrame) : (s.process f).own = s.own := by
  unfold State.process State.takeFrame
  split
  · rfl
  · split
    · rfl
    · exact respond_own _ _ _ _ _

@[simp] theorem State.acceptFrame_own (f : LinkFrame) : (s.acceptFrame f).own = s.own := by
  rcases s.acceptFrame_cases f with ⟨_, q⟩ | ⟨_, _, q⟩ | ⟨_, _, q⟩ <;> simp [q]

@[simp] theorem State.discardFrame_own : s.discardFrame.own = s.own := rfl

@[simp] theorem State.frameByte_own (bytes : List Byte) : (s.frameByte bytes).own = s.own := by
  unfold State.frameByte
  split
  · rfl
  · rfl
  · exact State.acceptFrame_own _ _

@[simp] theorem State.byteArrives_own (b : Byte) (stopBit : Bool) : (s.byteArrives b stopBit).own = s.own := by
  unfold State.byteArrives
  split
  · split <;> rfl
  · split <;> simp

@[simp] theorem State.frameArrives_own (f : LinkFrame) : (s.frameArrives f).own = s.own := by
  unfold State.frameArrives
  split
  · exact State.acceptFrame_own _ _
  · rfl

@[simp] theorem State.nextFrame_own : s.nextFrame.own = s.own := by
  unfold State.nextFrame
  split <;> simp

end

/-! ## What a command leaves behind it -/

/-- `t` comes after `s`: the same commands wait, the clock has not run back, and no free choice is taken back. -/
def State.ComesAfter (s t : State) : Prop := t.pending = s.pending ∧ s.now ≤ t.now ∧ s.choices ≤ t.choices

/-- The outcome answers a next state that comes after `s`. -/
def CompletesAfter (s : State) (o : Host.Outcome State Fault Refusal) : Prop := ∃ t, o = .next t ∧ s.ComesAfter t

namespace State.ComesAfter

variable {s t u : State}

/-- What leaves the model's own fields comes after them. -/
theorem of_own (same : t.own = s.own) : s.ComesAfter t := by
  obtain ⟨now, choices, pending⟩ : t.now = s.now ∧ t.choices = s.choices ∧ t.pending = s.pending := by
    simpa [State.own] using same
  exact ⟨pending, Nat.le_of_eq now.symm, Nat.le_of_eq choices.symm⟩

theorem trans (first : s.ComesAfter t) (then_ : t.ComesAfter u) : s.ComesAfter u := by
  obtain ⟨pending, now, choices⟩ := first
  obtain ⟨pending', now', choices'⟩ := then_
  exact ⟨pending'.trans pending, Nat.le_trans now now', Nat.le_trans choices choices'⟩

theorem advance (s : State) (time : Nat) : s.ComesAfter (s.advance time) := ⟨rfl, Nat.le_max_left _ _, Nat.le_refl _⟩

/-- A free choice is counted, and what follows it leaves the model's own fields. -/
theorem of_chose (same : t.own = s.chose.own) : s.ComesAfter t :=
  trans (t := s.chose) ⟨rfl, Nat.le_refl _, Nat.le_succ _⟩ (of_own same)

/-- A message of a stage acts only where it passes the integrity check (R116). -/
theorem ifIntact (intact : Bool) {f : State → State} (acts : s.ComesAfter (f s)) :
    s.ComesAfter (Machine.ifIntact intact f s) := by
  cases intact
  · exact of_own rfl
  · exact acts

theorem takeChange (s : State) (i : LineInput) (level : Level) {act : State → State}
    (acts : ∀ u : State, u.ComesAfter (act u)) : s.ComesAfter (s.takeChange i level act) := by
  have taken : s.ComesAfter (s.takeLevel i) := of_own (s.takeLevel_own i)
  rcases s.takeChange_cases i level act with ⟨_, q⟩ | ⟨_, q⟩
  · rwa [q]
  · rw [q]; exact taken.trans (acts _)

/-- The reply of a RESET request is followed by the warm reset, which reads the strap as a free choice (R195). -/
theorem replyGone (s : State) : s.ComesAfter s.replyGone := by
  unfold State.replyGone
  split
  · exact of_own rfl
  · dsimp only
    split
    · exact of_chose rfl
    · split
      · exact of_own (State.nextFrame_own _)
      · exact of_own rfl

end State.ComesAfter

section

variable {s : State}

theorem next_completesAfter {t : State} (after : s.ComesAfter t) : CompletesAfter s (.next t) := ⟨t, rfl, after⟩

theorem atTime_completesAfter {time : Nat} {f : State → State} (acts : ∀ u : State, u.ComesAfter (f u)) :
    CompletesAfter s (atTime time s f) := by
  have moved := State.ComesAfter.advance s time
  rcases atTime_cases time s f with ⟨_, q⟩ | ⟨_, q⟩
  · rw [q]; exact next_completesAfter (moved.trans (acts _))
  · rw [q]; exact next_completesAfter moved

theorem atExpiry_completesAfter {timer : Option Nat} {f : State → State} (acts : ∀ u : State, u.ComesAfter (f u)) :
    CompletesAfter s (atExpiry timer s f) := by
  rcases atExpiry_cases timer s f with ⟨e, _, _, q⟩ | q
  · rw [q]; exact next_completesAfter ((State.ComesAfter.advance s e).trans (acts _))
  · rw [q]; exact next_completesAfter (.of_own rfl)

theorem atStoreExpiry_completesAfter {timer : Option Nat} {f : State → State} (same : ∀ u : State, (f u).own = u.own) :
    CompletesAfter s (atStoreExpiry timer s f) := by
  rcases atStoreExpiry_cases timer s f with ⟨e, _, q⟩ | ⟨_, q⟩
  · rw [q]; exact next_completesAfter ((State.ComesAfter.advance s e).trans (.of_own (same _)))
  · rw [q]; exact next_completesAfter (.of_own rfl)

/-- A timer's expiry whose work leaves the model's own fields moves the clock at most. -/
theorem expiry_completesAfter {timer : Option Nat} {f : State → State} (same : ∀ u : State, (f u).own = u.own) :
    CompletesAfter s (atExpiry timer s f) :=
  atExpiry_completesAfter fun u => .of_own (same u)

/-- A filter that ends with a change of a line input (R152). -/
theorem lineTaken_completesAfter {timer : Option Nat} (i : LineInput) (level : Level) {act : State → State}
    (acts : ∀ u : State, u.ComesAfter (act u)) : CompletesAfter s (atExpiry timer s (·.takeChange i level act)) :=
  atExpiry_completesAfter fun u => .takeChange u i level acts

theorem request_completesAfter {c : Instr} {time : Nat} {tag kind : Byte} (row : requestOf c = some (time, tag, kind)) :
    CompletesAfter s (exec c s) := by
  obtain ⟨k, q, -, -, acts⟩ := exec_of_requestOf row
  rw [acts]
  exact atTime_completesAfter fun u => .of_own (respond_own u k tag false q)

theorem settleTimerExpiry_completesAfter (g : Stage) : CompletesAfter s (execSettleTimerExpiry g s) := by
  refine atExpiry_completesAfter fun u => ?_
  exact .of_chose (u.chose.settleExpired_own g _)

theorem slotTimerExpiry_completesAfter (g : Stage) : CompletesAfter s (execSlotTimerExpiry g s) := by
  refine expiry_completesAfter fun u => ?_
  split <;> simp

theorem splitTimerExpiry_completesAfter (g : Stage) : CompletesAfter s (execSplitTimerExpiry g s) := by
  refine expiry_completesAfter fun u => ?_
  split
  · split <;> simp
  · rfl

theorem pyrometerSample_completesAfter (time : Nat) (h : Head) (intact : Bool) (m : Sample) :
    CompletesAfter s (execPyrometerSample time h intact m s) := by
  refine atTime_completesAfter fun u => ?_
  exact .of_own (u.sample_own h _)

theorem lineInputChange_completesAfter (time : Nat) (i : LineInput) (level : Level) :
    CompletesAfter s (execLineInputChange time i level s) := by
  have moved := State.ComesAfter.advance s time
  unfold execLineInputChange
  split
  · exact next_completesAfter (moved.trans (.of_own (State.setInput_own _ _ _)))
  · exact next_completesAfter (moved.trans (.of_own (State.lineChange_own _ _ _)))

theorem initialLevelTaken_completesAfter (i : LineInput) : CompletesAfter s (execInitialLevelTaken i s) := by
  refine atExpiry_completesAfter fun u => ?_
  have taken : u.ComesAfter (u.takeLevel i) := .of_own (u.takeLevel_own i)
  dsimp only
  split
  · exact taken.trans (.of_chose (State.estopTaken_own _))
  · exact taken

theorem resetLine_completesAfter (time : Nat) (strap : Rate) : CompletesAfter s (execResetLine time strap s) := by
  refine atTime_completesAfter fun u => ?_
  exact .of_own rfl

theorem resetLineReleased_completesAfter (time : Nat) : CompletesAfter s (execResetLineReleased time s) := by
  refine next_completesAfter ((State.ComesAfter.advance s time).trans ?_)
  split <;> exact .of_own rfl

end

/-- Every command completes: it answers a next state, which comes after its own. The rows not named are the requests. -/
theorem exec_completesAfter (c : Instr) (s : State) : CompletesAfter s (exec c s) := by
  cases c with
  | frameReceived => exact atTime_completesAfter fun u => .of_own (u.frameArrives_own _)
  | byteReceived => exact atTime_completesAfter fun u => .of_own (u.byteArrives_own _ _)
  | replySent => exact atTime_completesAfter State.ComesAfter.replyGone
  | resetLine time strap => exact resetLine_completesAfter time strap
  | resetLineReleased time => exact resetLineReleased_completesAfter time
  | powerOnReset time => exact next_completesAfter ((State.ComesAfter.advance s time).trans (.of_own rfl))
  | busReport _ g intact => exact atTime_completesAfter fun u => .ifIntact intact (.of_own (u.busReported_own g _))
  | segmentReport _ g intact =>
    exact atTime_completesAfter fun u => .ifIntact intact (.of_chose (u.chose.segmentReported_own g _ _ _))
  | tripReport _ g intact => exact atTime_completesAfter fun u => .ifIntact intact (.of_own (u.tripReported_own g _))
  | settleTimerExpiry g => exact settleTimerExpiry_completesAfter g
  | slotTimerExpiry g => exact slotTimerExpiry_completesAfter g
  | splitTimerExpiry g => exact splitTimerExpiry_completesAfter g
  | pyrometerSample time h intact m => exact pyrometerSample_completesAfter time h intact m
  | lineInputChange time i level => exact lineInputChange_completesAfter time i level
  | initialLevelTaken i => exact initialLevelTaken_completesAfter i
  | estopAsserted => exact lineTaken_completesAfter .estop .low fun u => .of_chose u.estopTaken_own
  | estopReleased => exact lineTaken_completesAfter .estop .high fun u => .of_own (u.raise_own _)
  | motionAsserted => exact lineTaken_completesAfter .motion .low fun u => .of_own u.motionAssert_own
  | motionReleased => exact lineTaken_completesAfter .motion .high fun _ => .of_own (State.startChecks_own _ _)
  | clampFallingEdge h => exact lineTaken_completesAfter (.clamp h) .low fun u => .of_own (u.clampFell_own h)
  | clampRisingEdge h => exact lineTaken_completesAfter (.clamp h) .high fun u => .of_own (u.clampRose_own h)
  | flowFallingEdge h => exact lineTaken_completesAfter (.flow h) .low fun u => .of_own (u.flowFell_own h)
  | flowRisingEdge h => exact lineTaken_completesAfter (.flow h) .high fun u => .of_own (u.flowRose_own h)
  | programComplete passed => exact atStoreExpiry_completesAfter fun u => u.programDone_own passed
  | eraseComplete passed => exact atStoreExpiry_completesAfter fun u => u.eraseDone_own passed
  | suspendTimerExpiry => exact atStoreExpiry_completesAfter State.suspendEnds_own
  | gapTimerExpiry | completionTimerExpiry | armTimerExpiry | durationTimerExpiry | timeLimitExpiry | lostTimerExpiry
  | keyChange | flowGraceTimerExpiry =>
    dsimp only [exec]
    refine expiry_completesAfter fun u => ?_
    simp
  | _ => exact request_completesAfter rfl

/-- Settles O2, by the kind of command: a request, a message at a time, or a timer's expiry. -/
theorem commandsCompleteAndKeepQueue : Obligations.CommandsCompleteAndKeepQueue := exec_completesAfter

/-! ## The step -/

theorem step_of_front {c : Instr} {rest : List Instr} {s : State} (front : s.pending = c :: rest) :
    step s = exec c { s with pending := rest } := by
  simp only [step, front]

theorem step_of_empty {s : State} (empty : s.pending = []) : step s = .next s := by
  simp only [step, empty]

/-- Settles O1, by the queue: a command at its front, or none. -/
theorem stepRunsFrontCommand : Obligations.StepRunsFrontCommand :=
  ⟨fun _ _ _ => step_of_front, fun _ => step_of_empty⟩

end Sys2Proof.Machine
end
